-- ==== Sys2Proof/Word.lean ====
section
/-! DEFINITION. The widths of the machine: the 64-bit word (00_scope.md R2), the byte (20_memory.md
R80), a register number (10_state.md R22). Arithmetic on them is `BitVec`'s, which wraps as R9 says. -/

namespace Sys2Proof

/-- A register, an address or a CSR value: XLEN = 64 bits (R2). -/
abbrev Word := BitVec 64

/-- A byte of memory: 8 bits (R80). -/
abbrev Byte := BitVec 8

/-- A fetched instruction word: 32 bits (R83, R100). -/
abbrev InstrWord := BitVec 32

/-- A general-register number, 0 to 31 (R22, R102). -/
abbrev RegIdx := Fin 32

end Sys2Proof
end

