-- ==== Sys2Proof/Config.lean ====
section
/-! DEFINITION. The privilege modes (10_state.md R21), the implementation parameters of 00_scope.md R7
as plain data, and the values the spec leaves free as constants with no body. -/

namespace Sys2Proof

/-- A privilege mode: user, supervisor, machine (R3, R21). -/
inductive Priv where
  | U
  | S
  | M
deriving DecidableEq, Repr, Inhabited

/-- IALIGN, the alignment of instruction addresses in bits (R7, D11). -/
inductive IAlign where
  | bits16
  | bits32
deriving DecidableEq, Repr

/-- The parameters of R7 that a machine fixes once. A `State` carries one `Config`; no step changes it
(notes/assumptions/1.md). -/
structure Config where
  /-- `HAS_S`: supervisor mode is implemented (D6). -/
  hasS : Bool
  /-- `HAS_U`: user mode is implemented (D7). -/
  hasU : Bool
  /-- `IALIGN` (D11). -/
  ialign : IAlign
  /-- `RESET_PC` (D20). -/
  resetPc : Word
  /-- `MTVEC_BASE_MASK`: the writable bits of BASE, bits `[63:2]` of *mtvec* (D16). -/
  mtvecBaseMask : BitVec 62
  /-- `MIDELEG_MASK` (D28). -/
  midelegMask : Word
  /-- `MEDELEG_MASK` (D28). -/
  medelegMask : Word
  /-- `MSTATUS_HI_MASK`: the writable bits of *mstatus* `[63:13]` (D19). -/
  mstatusHiMask : BitVec 51
  /-- `EAGER_INTERRUPTS` (D9). -/
  eager : Bool
  /-- The parameter `legalize_mtvec` is supplied (D16, notes/assumptions/9.md). -/
  legalizeMtvecSupplied : Bool
  /-- A `legalize_mpp` other than "keep old" is supplied (D34, notes/assumptions/10.md). -/
  legalizeMppSupplied : Bool
deriving DecidableEq, Repr

/-- FREE VALUE. `legalize_mtvec(old, written)` where it is supplied (R7, R47): no body, so nothing is
provable of its value (notes/assumptions/9.md). -/
opaque Config.legalizeMtvec : Word → Word → Word

/-- FREE VALUE. `legalize_mpp(old, written)` where one other than "keep old" is supplied (R7, R30;
notes/assumptions/10.md). -/
opaque Config.legalizeMpp : Priv → BitVec 2 → Priv

/-- FREE VALUE. The `draw` that the Exception Code field of *mcause* or *scause*, bits `[62:0]`, holds after a
software write of an illegal pair (R42, R58, R132, D30; notes/assumptions/11.md), one for each value of the
state's draw counter. -/
opaque Config.drawCause : Nat → BitVec 63

/-- FREE VALUE. The `draw` a read of *sstatus* returns in bits `[63:13]` (R53, R131;
notes/assumptions/12.md), one for each value of the state's draw counter. -/
opaque Config.drawSstatusHi : Nat → BitVec 51

end Sys2Proof
end

