-- ==== Sys2Proof/Syntax.lean ====
section
/-! DEFINITION. The ten instructions, one constructor for each row of spec/opcode_table.json
(30_encoding.md R105), and the fourteen CSRs of 10_state.md R23. -/

namespace Sys2Proof

/-- The instructions of this spec. A CSR instruction carries the 12-bit CSR number as it stands in the
word (R102), whether or not the number is one of R23: a number outside R23 decodes and is refused when
executed (R50, 95_test_vectors.md K16). -/
inductive Instr where
  /-- ECALL, environment call (R150). -/
  | ecall
  /-- EBREAK, breakpoint (R151). -/
  | ebreak
  /-- SRET, return from a supervisor-mode trap handler (R121). -/
  | sret
  /-- MRET, return from a machine-mode trap handler (R120). -/
  | mret
  /-- CSRRW `rd, csr, rs1` (R134). -/
  | csrrw (rd : RegIdx) (csr : BitVec 12) (rs1 : RegIdx)
  /-- CSRRS `rd, csr, rs1` (R135). -/
  | csrrs (rd : RegIdx) (csr : BitVec 12) (rs1 : RegIdx)
  /-- CSRRC `rd, csr, rs1` (R136). -/
  | csrrc (rd : RegIdx) (csr : BitVec 12) (rs1 : RegIdx)
  /-- CSRRWI `rd, csr, uimm` (R137). -/
  | csrrwi (rd : RegIdx) (csr : BitVec 12) (uimm : BitVec 5)
  /-- CSRRSI `rd, csr, uimm` (R138). -/
  | csrrsi (rd : RegIdx) (csr : BitVec 12) (uimm : BitVec 5)
  /-- CSRRCI `rd, csr, uimm` (R139). -/
  | csrrci (rd : RegIdx) (csr : BitVec 12) (uimm : BitVec 5)
deriving DecidableEq, Repr

/-- The CSRs of R23. *sstatus*, *sie* and *sip* are views with no storage of their own (R53 to R55). -/
inductive Csr where
  | sstatus
  | sie
  | stvec
  | sepc
  | scause
  | sip
  | mstatus
  | medeleg
  | mideleg
  | mie
  | mtvec
  | mepc
  | mcause
  | mip
deriving DecidableEq, Repr

/-- The destination register of an instruction; `x0`, which discards writes, for one that has none. -/
def Instr.destination : Instr → RegIdx
  | .ecall => 0
  | .ebreak => 0
  | .sret => 0
  | .mret => 0
  | .csrrw rd _ _ => rd
  | .csrrs rd _ _ => rd
  | .csrrc rd _ _ => rd
  | .csrrwi rd _ _ => rd
  | .csrrsi rd _ _ => rd
  | .csrrci rd _ _ => rd

/-- The CSR number an instruction names, if it names one. -/
def Instr.csrField? : Instr → Option (BitVec 12)
  | .ecall => none
  | .ebreak => none
  | .sret => none
  | .mret => none
  | .csrrw _ csr _ => some csr
  | .csrrs _ csr _ => some csr
  | .csrrc _ csr _ => some csr
  | .csrrwi _ csr _ => some csr
  | .csrrsi _ csr _ => some csr
  | .csrrci _ csr _ => some csr

end Sys2Proof
end

