-- ==== Sys2Proof/Machine/CsrNumber.lean ====
section
/-! DEFINITION. The numbers of the CSRs and what the bits of a CSR number say (10_state.md R23,
30_encoding.md R107). -/

namespace Sys2Proof.Machine

/-- The 12-bit number of a CSR: the table of R23. -/
def csrNumber : Csr → BitVec 12
  | .sstatus => 0x100#12
  | .sie => 0x104#12
  | .stvec => 0x105#12
  | .sepc => 0x141#12
  | .scause => 0x142#12
  | .sip => 0x144#12
  | .mstatus => 0x300#12
  | .medeleg => 0x302#12
  | .mideleg => 0x303#12
  | .mie => 0x304#12
  | .mtvec => 0x305#12
  | .mepc => 0x341#12
  | .mcause => 0x342#12
  | .mip => 0x344#12

/-- Every CSR of R23, in the table's order. -/
def allCsrs : List Csr :=
  [.sstatus, .sie, .stvec, .sepc, .scause, .sip, .mstatus, .medeleg, .mideleg, .mie, .mtvec, .mepc,
    .mcause, .mip]

/-- The CSR a number names, if the number is one of R23. -/
def csrOfNumber? (n : BitVec 12) : Option Csr :=
  allCsrs.find? (fun c => csrNumber c == n)

/-- The CSRs of Annex S, which exist only if `HAS_S` (R51 to R58, R133, R199). -/
def csrIsAnnex : Csr → Bool
  | .sstatus | .sie | .stvec | .sepc | .scause | .sip | .medeleg | .mideleg => true
  | .mstatus | .mie | .mtvec | .mepc | .mcause | .mip => false

/-- The encoding of the lowest mode that may access a CSR: bits `[9:8]` of its number (R107). -/
def csrLowestMode (n : BitVec 12) : BitVec 2 :=
  n.extractLsb' 8 2

/-- The number marks a read-only CSR: bits `[11:10]` are `0b11` (R107). -/
def csrIsReadOnly (n : BitVec 12) : Bool :=
  n.extractLsb' 10 2 == 0b11#2

end Sys2Proof.Machine
end

