-- ==== Sys2Proof/WellFormed.lean ====
section
/-! DEFINITION. Which instructions the spec gives a meaning in every respect. The types of `Instr` hold
register numbers, CSR numbers and immediates to their widths; what is left to check is that a CSR
instruction names a CSR of 10_state.md R23. -/

namespace Sys2Proof

/-- The CSR number names a register of R23; any other number is outside the spec (R50). -/
def csrNumberInSpec (n : BitVec 12) : Bool :=
  (Machine.csrOfNumber? n).isSome

/-- An instruction is well formed when the CSR it names, if it names one, is a CSR of R23. -/
def Instr.wellFormed : Instr → Bool
  | .ecall => true
  | .ebreak => true
  | .sret => true
  | .mret => true
  | .csrrw _ csr _ => csrNumberInSpec csr
  | .csrrs _ csr _ => csrNumberInSpec csr
  | .csrrc _ csr _ => csrNumberInSpec csr
  | .csrrwi _ csr _ => csrNumberInSpec csr
  | .csrrsi _ csr _ => csrNumberInSpec csr
  | .csrrci _ csr _ => csrNumberInSpec csr

end Sys2Proof
end

