-- ==== Sys2Proof/Decode.lean ====
section
/-! DEFINITION. From bytes to an instruction and back: decoding (30_encoding.md R104, R108, R109, over
the little-endian fetch of 20_memory.md R83, R84), the encoder written from the table of R105, and the
host's `decodeTableWord`. -/

namespace Sys2Proof

/-- Why the decoder gives no instruction. -/
inductive DecodeError where
  /-- Fewer than four bytes were given; the fetch of R83 always gives four. -/
  | tooShort
  /-- `refuse("16-bit instruction")`: bits `[1:0]` are not `0b11` (R100, R104). -/
  | sixteenBit
  /-- Bits `[6:0]` are not SYSTEM: `refuse("instruction outside this spec")` (R104, R14 step 6). -/
  | notSystem
  /-- A SYSTEM word of no row: `refuse("SYSTEM encoding outside this spec")` (R109). -/
  | systemEncoding
deriving DecidableEq, Repr

/-- The fields of the I-type layout of R101. -/
def fieldOpcode (w : InstrWord) : BitVec 7 := w.extractLsb' 0 7
/-- `rd`, bits `[11:7]` (R101). -/
def fieldRd (w : InstrWord) : RegIdx := (w.extractLsb' 7 5).toFin
/-- `funct3`, bits `[14:12]` (R101). -/
def fieldFunct3 (w : InstrWord) : BitVec 3 := w.extractLsb' 12 3
/-- `rs1`, bits `[19:15]` (R101). -/
def fieldRs1 (w : InstrWord) : RegIdx := (w.extractLsb' 15 5).toFin
/-- `uimm`, bits `[19:15]` in place of `rs1` (R101, R103). -/
def fieldUimm (w : InstrWord) : BitVec 5 := w.extractLsb' 15 5
/-- `csr`, bits `[31:20]` (R101). -/
def fieldCsr (w : InstrWord) : BitVec 12 := w.extractLsb' 20 12

/-- The major opcode SYSTEM (R101). -/
def opcodeSystem : BitVec 7 := 0b1110011#7

/-- The `funct3` = 0 group: four words fixed in all 32 bits (R104, R105, R108). -/
def decodePrivileged (w : InstrWord) : Except DecodeError Instr :=
  if w = 0x00000073#32 then .ok .ecall
  else if w = 0x00100073#32 then .ok .ebreak
  else if w = 0x10200073#32 then .ok .sret
  else if w = 0x30200073#32 then .ok .mret
  else .error .systemEncoding

/-- The SYSTEM words by `funct3` (R104); `funct3` = 4 is no instruction of this spec (R109). -/
def decodeSystem (w : InstrWord) : Except DecodeError Instr :=
  if fieldFunct3 w = 0#3 then decodePrivileged w
  else if fieldFunct3 w = 1#3 then .ok (.csrrw (fieldRd w) (fieldCsr w) (fieldRs1 w))
  else if fieldFunct3 w = 2#3 then .ok (.csrrs (fieldRd w) (fieldCsr w) (fieldRs1 w))
  else if fieldFunct3 w = 3#3 then .ok (.csrrc (fieldRd w) (fieldCsr w) (fieldRs1 w))
  else if fieldFunct3 w = 5#3 then .ok (.csrrwi (fieldRd w) (fieldCsr w) (fieldUimm w))
  else if fieldFunct3 w = 6#3 then .ok (.csrrsi (fieldRd w) (fieldCsr w) (fieldUimm w))
  else if fieldFunct3 w = 7#3 then .ok (.csrrci (fieldRd w) (fieldCsr w) (fieldUimm w))
  else .error .systemEncoding

/-- Decoding of a fetched word (R104). -/
def decodeWord (w : InstrWord) : Except DecodeError Instr :=
  if w.extractLsb' 0 2 ≠ 0b11#2 then .error .sixteenBit
  else if fieldOpcode w ≠ opcodeSystem then .error .notSystem
  else decodeSystem w

/-- Four bytes as a word, the byte at the lowest address in the low bits (R84). -/
def wordOfBytes (b0 b1 b2 b3 : Byte) : InstrWord := b3 ++ b2 ++ b1 ++ b0

/-- The four bytes of a word, in the order of their addresses (R84). -/
def bytesOfWord (w : InstrWord) : List Byte :=
  [w.extractLsb' 0 8, w.extractLsb' 8 8, w.extractLsb' 16 8, w.extractLsb' 24 8]

/-- Decoding of bytes as they lie in memory: the instruction and the bytes after it (R83, R100). -/
def decodeBytes : List Byte → Except DecodeError (Instr × List Byte)
  | b0 :: b1 :: b2 :: b3 :: rest => (decodeWord (wordOfBytes b0 b1 b2 b3)).map (·, rest)
  | _ => .error .tooShort

/-- A word of the I-type layout from its fields (R101, R105). -/
def assemble (upper : BitVec 12) (mid : BitVec 5) (funct3 : BitVec 3) (rd : BitVec 5) : InstrWord :=
  upper ++ mid ++ funct3 ++ rd ++ opcodeSystem

/-- The word of an instruction, row by row of R105. -/
def encode : Instr → InstrWord
  | .ecall => assemble 0b000000000000#12 0#5 0b000#3 0#5
  | .ebreak => assemble 0b000000000001#12 0#5 0b000#3 0#5
  | .sret => assemble 0b000100000010#12 0#5 0b000#3 0#5
  | .mret => assemble 0b001100000010#12 0#5 0b000#3 0#5
  | .csrrw rd csr rs1 => assemble csr (.ofFin rs1) 0b001#3 (.ofFin rd)
  | .csrrs rd csr rs1 => assemble csr (.ofFin rs1) 0b010#3 (.ofFin rd)
  | .csrrc rd csr rs1 => assemble csr (.ofFin rs1) 0b011#3 (.ofFin rd)
  | .csrrwi rd csr uimm => assemble csr uimm 0b101#3 (.ofFin rd)
  | .csrrsi rd csr uimm => assemble csr uimm 0b110#3 (.ofFin rd)
  | .csrrci rd csr uimm => assemble csr uimm 0b111#3 (.ofFin rd)

/-- The bytes of an instruction as they lie in memory (R84, R100). -/
def encodeBytes (i : Instr) : List Byte := bytesOfWord (encode i)

/-- The word whose low `nbits` bits are those of `w` and whose other bits are 0, as the opcode table
numbers them: the bytes and the bits of a 32-bit word count from the same end (R84, R8). -/
def tableWord (nbits w : Nat) : InstrWord := BitVec.ofNat 32 (w % 2 ^ nbits)

/-- The host's question: the instruction the decoder reads from the bytes of a table row's word. -/
def decodeTableWord (nbits w : Nat) : Option Instr :=
  match decodeBytes (bytesOfWord (tableWord nbits w)) with
  | .ok (i, _) => some i
  | .error _ => none

end Sys2Proof
end

