-- ==== Sys2Proof/Machine/Params.lean ====
section
/-! DEFINITION. What follows from the parameters of 00_scope.md R7: the implemented modes, the low bits
of an instruction address, the writable bits of BASE, and the parameters of the machine after
`State.reset`. -/

namespace Sys2Proof

/-- The mode is implemented: M always, S under `HAS_S`, U under `HAS_U` (R21, R187). -/
def Config.implements (cfg : Config) : Priv → Bool
  | .U => cfg.hasU
  | .S => cfg.hasS
  | .M => true

/-- The least privileged implemented mode that MRET leaves in MPP: U if `HAS_U`, else M (R120, D14). -/
def Config.leastMode (cfg : Config) : Priv :=
  if cfg.hasU then .U else .M

/-- The bits of an instruction address below IALIGN, which are always 0 (R49, R86). -/
def Config.lowPcBits (cfg : Config) : Word :=
  match cfg.ialign with
  | .bits16 => 0x1#64
  | .bits32 => 0x3#64

/-- `MTVEC_BASE_MASK` in the place of BASE in the register: `{MTVEC_BASE_MASK, 0b00}` (R47). -/
def Config.baseMaskWord (cfg : Config) : Word :=
  cfg.mtvecBaseMask ++ 0#2

/-- The configurations the spec allows: `HAS_S` implies `HAS_U` (R187), code 11 can never be delegated
(R52), and the reset vector is an instruction address (R20). -/
def Config.legal (cfg : Config) : Bool :=
  (!cfg.hasS || cfg.hasU) && !cfg.medelegMask.getLsbD 11 && (cfg.resetPc &&& cfg.lowPcBits == 0#64)

/-- The parameters of the machine `State.reset` describes: R7's defaults where it names one
(notes/assumptions/1.md), `RESET_PC` by notes/assumptions/8.md, `legalize_mtvec` supplied by
notes/assumptions/9.md. -/
def Config.default : Config where
  hasS := true
  hasU := true
  ialign := .bits32
  resetPc := 0x80000000#64
  mtvecBaseMask := BitVec.allOnes 62
  midelegMask := 0x222#64
  medelegMask := 0xB3FF#64
  mstatusHiMask := 0#51
  eager := true
  legalizeMtvecSupplied := true
  legalizeMppSupplied := false

end Sys2Proof
end

