-- ==== Sys2Proof/Machine/ResetValues.lean ====
section
/-! DEFINITION. What 10_state.md R61 leaves unspecified at reset, as plain data, so that the reset
operation can be given every choice, and the one choice `State.reset` names. -/

namespace Sys2Proof.Machine

/-- One value for every piece of state whose reset value R61 gives as "unspecified". -/
structure ResetDraw where
  /-- `x1` to `x31`. -/
  x : Vector Word 31
  mpie : Bool
  spie : Bool
  spp : Bool
  mpp : Priv
  mstatusHi : BitVec 51
  mie : Word
  ssip : Bool
  stip : Bool
  seipSw : Bool
  mcause : Word
  mtvec : Word
  mepc : Word
  stvec : Word
  sepc : Word
  scause : Word
deriving DecidableEq, Repr

/-- DESIGN CHOICE: the values `State.reset` takes where R61 says "unspecified": zero, and U for MPP,
whose code is zero (notes/assumptions/2.md to 7.md). No statement of the package rests on them. -/
def resetChoice : ResetDraw where
  x := Vector.replicate 31 0#64
  mpie := false
  spie := false
  spp := false
  mpp := .U
  mstatusHi := 0#51
  mie := 0#64
  ssip := false
  stip := false
  seipSw := false
  mcause := 0#64
  mtvec := 0#64
  mepc := 0#64
  stvec := 0#64
  sepc := 0#64
  scause := 0#64

/-- A drawn MPP is a mode the hart has (R30): an unimplemented one is replaced by M, which every hart
has (R187). -/
def resetMpp (cfg : Config) (p : Priv) : Priv :=
  if cfg.implements p then p else .M

/-- A drawn *mtvec* or *stvec* has a legal MODE (R45, R47): bit 1 is 0. -/
def resetTvec (v : Word) : Word := v &&& ~~~0x2#64

/-- A drawn *mepc* or *sepc* is an aligned address (R49). -/
def resetEpc (cfg : Config) (v : Word) : Word := v &&& ~~~cfg.lowPcBits

/-- A drawn *mie* has only the enables of R33 (the supervisor ones only under `HAS_S`, R34). -/
def resetMie (cfg : Config) (v : Word) : Word :=
  v &&& (if cfg.hasS then 0xAAA#64 else 0x888#64)

/-- MPRV, bit 17 of *mstatus* and so bit 4 of `mstatus_hi`, is 0 after reset (R32, R61). -/
def resetMstatusHi (v : BitVec 51) : BitVec 51 := v &&& ~~~(0x10#51)

end Sys2Proof.Machine
end

