-- ==== Sys2Proof/Machine/State.lean ====
section
/-! DEFINITION. The state of the machine (10_state.md), the reasons a step can stop
(93_implementation_defined.md Part 1b), and the state after reset (R61, R230). -/

namespace Sys2Proof.Machine

/-- The fields of *mstatus* (R24). Reserved bits 0, 2, 4, 6 and `[10:9]` are not stored: they read 0 and
ignore writes (R31). MPP holds a mode and so never `0b10` (R30). -/
structure Mstatus where
  /-- Bit 1, Supervisor Interrupt Enable (R25). -/
  sie : Bool
  /-- Bit 3, Machine Interrupt Enable (R26). -/
  mie : Bool
  /-- Bit 5, Supervisor Previous Interrupt Enable (R27). -/
  spie : Bool
  /-- Bit 7, Machine Previous Interrupt Enable (R28). -/
  mpie : Bool
  /-- Bit 8, Supervisor Previous Privilege Mode: 1 for S, 0 for U (R29). -/
  spp : Bool
  /-- Bits `[12:11]`, Machine Previous Privilege Mode (R30). -/
  mpp : Priv
  /-- `mstatus_hi`, bits `[63:13]` (R32). -/
  hi : BitVec 51
deriving DecidableEq, Repr

/-- The four wires into the hart (R59). -/
structure Lines where
  /-- `msip_line`, from the CLINT. -/
  msip : Bool
  /-- `mtip_line`, from the CLINT. -/
  mtip : Bool
  /-- `meip_line`, from the PLIC. -/
  meip : Bool
  /-- `seip_line`, from the PLIC. -/
  seip : Bool
deriving DecidableEq, Repr

/-- All four wires low. -/
def Lines.low : Lines := ⟨false, false, false, false⟩

/-- A turn of one of the agents of R13 (notes/assumptions/15.md). -/
inductive Turn where
  /-- A step of the hart (R14). `take` is the scheduler's choice of R170: take a takeable interrupt now, or
  let one more instruction run. Under `EAGER_INTERRUPTS` it is not consulted. -/
  | hart (take : Bool)
  /-- The CLINT sets its two lines (R13, R161). -/
  | clint (msip mtip : Bool)
  /-- The PLIC sets its two lines (R13, R162). -/
  | plic (meip seip : Bool)
  /-- The environment resets the hart (R230), with a value for all that R61 leaves unspecified. -/
  | reset (u : ResetDraw)
deriving DecidableEq, Repr

/-- Memory: the bytes the platform defines, addresses strictly rising (R80). An unlisted address is
undefined and reads as no value (R95, notes/assumptions/16.md). -/
abbrev Memory := List Host.Cell

/-- The state of the machine. -/
structure State where
  /-- The parameters of R7, fixed for the machine. -/
  cfg : Config
  /-- The program counter (R20). -/
  pc : Word
  /-- The current privilege mode (R21). -/
  priv : Priv
  /-- `x1` to `x31`; `x0` has no storage (R22). -/
  x : Vector Word 31
  /-- *mstatus* (R24). -/
  mstatus : Mstatus
  /-- *mie* (R33). -/
  mie : Word
  /-- *mip*.SSIP (R38). -/
  ssip : Bool
  /-- *mip*.STIP (R38). -/
  stip : Bool
  /-- The software-writable part of *mip*.SEIP (R60). -/
  seipSw : Bool
  /-- *mcause* (R40). -/
  mcause : Word
  /-- *mtvec* (R44). -/
  mtvec : Word
  /-- *mepc* (R48). -/
  mepc : Word
  /-- *mideleg* (R51). -/
  mideleg : Word
  /-- *medeleg* (R52). -/
  medeleg : Word
  /-- *stvec* (R56). -/
  stvec : Word
  /-- *sepc* (R57). -/
  sepc : Word
  /-- *scause* (R58). -/
  scause : Word
  /-- The wires (R59). -/
  lines : Lines
  /-- The program text (R80, R93). -/
  mem : Memory
  /-- The MODEL's own: the turns still to come; when it is empty every turn is the hart's, and the hart
  takes a takeable interrupt at once (notes/assumptions/15.md). -/
  agenda : List Turn
  /-- The MODEL's own: the index of the next `draw` value (notes/assumptions/13.md). -/
  draws : Nat
deriving DecidableEq, Repr

/-- Why the machine stops with a fault: never. The spec's exceptions are traps that are taken, and each of
its stops is a refusal (93_implementation_defined.md Parts 1 and 1b), so there is no constructor
(notes/assumptions/35.md). -/
inductive Fault where
deriving DecidableEq, Repr

/-- Why the model gives a situation no meaning (93_implementation_defined.md Part 1b). Every one is safe:
nothing is claimed of the chip past it. -/
inductive Refusal where
  /-- Raised by nothing in this model: an arm of `exec` whose instruction has no meaning yet. Safe. -/
  | notModelled (mnemonic : String)
  /-- `refuse("instruction outside this spec")`: raised by the hart's step on a fetched word that is not a
  SYSTEM word (R14 step 6, R104). Safe. -/
  | instructionOutsideSpec
  /-- `refuse("16-bit instruction")`: raised by the hart's step on a fetched word whose bits `[1:0]` are not
  `0b11` (R100, R104). Safe. -/
  | sixteenBitInstruction
  /-- `refuse("SYSTEM encoding outside this spec")`: raised by the hart's step on a SYSTEM word of no row
  (R109). Safe. -/
  | systemEncodingOutsideSpec
  /-- `refuse("CSR outside this spec")`: raised by a CSR instruction that names a number not in R23 (R50,
  R133). Safe. -/
  | csrOutsideSpec
  /-- `refuse("mtvec write with reserved MODE")`: raised by a CSR instruction that writes MODE 2 or 3 to
  *mtvec* or *stvec* where `legalize_mtvec` is not supplied (R47, R56). Safe. -/
  | tvecWriteReservedMode
  /-- `refuse("vectored trap through misaligned mtvec base")`: raised by any trap taken while MODE = 1 and
  the base is not a multiple of 128 (R177). Safe. -/
  | vectoredTrapMisalignedBase
  /-- Raised by a trap through a trap vector whose MODE is 2 or 3, which the register never holds (R177 a):
  no state that satisfies the model's invariant raises it. Safe. -/
  | trapThroughReservedMode
  /-- `refuse("fetch outside defined memory")`: raised by the hart's step when a byte of the instruction at
  `pc` is not in memory (R95). Safe. -/
  | fetchOutsideMemory
deriving DecidableEq, Repr

/-- What one step answers. -/
abbrev Result := Host.Outcome State Fault Refusal

/-- The state after the reset event (R61, R230), for a machine with parameters `cfg`, wires at `lines`,
program text `mem`, and the values `u` for what R61 leaves unspecified. -/
def State.afterReset (cfg : Config) (lines : Lines) (mem : Memory) (agenda : List Turn) (draws : Nat)
    (u : ResetDraw) : State where
  cfg := cfg
  pc := cfg.resetPc
  priv := .M
  x := u.x
  mstatus :=
    { sie := false
      mie := false
      spie := cfg.hasS && u.spie
      mpie := u.mpie
      spp := cfg.hasS && u.spp
      mpp := resetMpp cfg u.mpp
      hi := resetMstatusHi u.mstatusHi }
  mie := resetMie cfg u.mie
  ssip := cfg.hasS && u.ssip
  stip := cfg.hasS && u.stip
  seipSw := cfg.hasS && u.seipSw
  mcause := u.mcause
  mtvec := resetTvec u.mtvec
  mepc := resetEpc cfg u.mepc
  mideleg := 0#64
  medeleg := 0#64
  stvec := resetTvec u.stvec
  sepc := resetEpc cfg u.sepc
  scause := u.scause
  lines := lines
  mem := mem
  agenda := agenda
  draws := draws

/-- The machine right after reset: the values of R61, the model's choice where R61 gives none, no memory
defined, the wires low and no turn scheduled. -/
def State.reset : State :=
  State.afterReset Config.default Lines.low [] [] 0 resetChoice

end Sys2Proof.Machine
end

