-- ==== Sys2Proof/Machine/Memory.lean ====
section
/-! DEFINITION. The operations over memory (20_memory.md section 1; the primitives MemRead and MemWrite of
00_scope.md R10) and the canonical form they keep. -/

namespace Sys2Proof.Machine

/-- What an unlisted address reads as: no value, for memory is defined only where the platform supplies it
(R80, R95; notes/assumptions/16.md). -/
def memoryUnlisted : Option Byte := none

/-- The byte at an address, if memory is defined there. -/
def readByte? : Memory → Nat → Option Byte
  | [], _ => memoryUnlisted
  | (a, b) :: rest, addr => if a = addr then some b else readByte? rest addr

/-- Memory with byte `b` at `addr`, in canonical form. -/
def writeByte : Memory → Nat → Byte → Memory
  | [], addr, b => [(addr, b)]
  | (a, b') :: rest, addr, b =>
    if addr < a then (addr, b) :: (a, b') :: rest
    else if addr = a then (a, b) :: rest
    else (a, b') :: writeByte rest addr b

/-- The addresses of the cells rise strictly, from above `lo` where it is given, and are 64-bit addresses. -/
def risingFrom : Option Nat → Memory → Bool
  | _, [] => true
  | lo, (a, _) :: rest =>
    (match lo with | none => true | some l => decide (l < a)) && decide (a < 2 ^ 64) &&
      risingFrom (some a) rest

/-- The canonical form of memory: addresses strictly rising and inside the 64-bit address space (R80). No
entry can equal what an unlisted address reads as, which is no value. -/
def Memory.wf (m : Memory) : Bool := risingFrom none m

/-- The address `k` bytes after `a`; the addition wraps modulo 2^64 (R9). -/
def addrPlus (a : Word) (k : Nat) : Nat := (a + BitVec.ofNat 64 k).toNat

/-- `MemRead(a, 4)` as its four bytes, the one at `a` first (R10, R83, R84); no value where one of them is
outside memory. -/
def readBytes4? (m : Memory) (a : Word) : Option (List Byte) := do
  let b0 ← readByte? m (addrPlus a 0)
  let b1 ← readByte? m (addrPlus a 1)
  let b2 ← readByte? m (addrPlus a 2)
  let b3 ← readByte? m (addrPlus a 3)
  pure [b0, b1, b2, b3]

/-- `MemWrite` of a list of bytes from address `a` on (R10). No instruction performs it: it stands for the
loading of the program text (notes/assumptions/16.md). -/
def writeBytes (m : Memory) (a : Word) : List Byte → Memory
  | [] => m
  | b :: rest => writeBytes (writeByte m a.toNat b) (a + 1#64) rest

end Sys2Proof.Machine
end

