-- ==== Sys2Proof/Machine/Flags.lean ====
section
/-! DEFINITION. The control and pending bits. The hart has no condition flags (91_not_in_source.md N6); what
other machines compute as flags are here the fields of *mstatus*, *mie* and *mip*, composed into words as
41_csr_access.md R131 says, with the supervisor fields hardwired to 0 where `HAS_S` is false (R199). -/

namespace Sys2Proof

/-- The encoding of a mode: U = 0, S = 1, M = 3 (R21). -/
def Priv.code : Priv → BitVec 2
  | .U => 0b00#2
  | .S => 0b01#2
  | .M => 0b11#2

/-- The mode a code stands for; 2 is reserved (R21, R30). -/
def Priv.ofCode? (b : BitVec 2) : Option Priv :=
  if b = 0b00#2 then some .U
  else if b = 0b01#2 then some .S
  else if b = 0b11#2 then some .M
  else none

end Sys2Proof

namespace Sys2Proof.Machine

/-- A word whose only possible 1 is bit `k`. -/
def bitAt (b : Bool) (k : Nat) : Word := (BitVec.ofBool b).setWidth 64 <<< k

/-- The `HAS_S` gate of R199: a supervisor-level bit is 0 on a hart without supervisor mode. -/
def State.sBit (s : State) (b : Bool) : Bool := s.cfg.hasS && b

/-- *mstatus* as a CSR read returns it: `{mstatus_hi, MPP, 0b00, SPP, MPIE, 0, SPIE, 0, MIE, 0, SIE, 0}`
(R131, R24). -/
def State.mstatusWord (s : State) : Word :=
  s.mstatus.hi ++ s.mstatus.mpp.code ++ 0#2 ++ BitVec.ofBool (s.sBit s.mstatus.spp) ++
    BitVec.ofBool s.mstatus.mpie ++ 0#1 ++ BitVec.ofBool (s.sBit s.mstatus.spie) ++ 0#1 ++
    BitVec.ofBool s.mstatus.mie ++ 0#1 ++ BitVec.ofBool (s.sBit s.mstatus.sie) ++ 0#1

/-- The enables *mie* stores: 0xAAA, or 0x888 without supervisor mode (R33, R34, R132). -/
def State.mieMask (s : State) : Word := if s.cfg.hasS then 0xAAA#64 else 0x888#64

/-- *mie* as read and as the take condition sees it (R33 to R35, R131). -/
def State.mieWord (s : State) : Word := s.mie &&& s.mieMask

/-- *mip* with bit 9 taken as `seip9` (R131, R132). -/
def State.mipWith (s : State) (seip9 : Bool) : Word :=
  bitAt (s.sBit s.ssip) 1 ||| bitAt s.lines.msip 3 ||| bitAt (s.sBit s.stip) 5 |||
    bitAt s.lines.mtip 7 ||| bitAt (s.sBit seip9) 9 ||| bitAt s.lines.meip 11

/-- *mip* as read and as the take condition sees it: SEIP is `seip_sw | seip_line` (R36 to R39, R60, R131). -/
def State.mipWord (s : State) : Word := s.mipWith (s.seipSw || s.lines.seip)

/-- *mideleg*, taken as 0 where supervisor mode does not exist (10_state.md section 10, R51, R199). -/
def State.midelegWord (s : State) : Word := if s.cfg.hasS then s.mideleg else 0#64

/-- *medeleg*, taken as 0 where supervisor mode does not exist (10_state.md section 10, R52, R199). -/
def State.medelegWord (s : State) : Word := if s.cfg.hasS then s.medeleg else 0#64

/-- The part of *mie* and *mip* that *sie* and *sip* show: `mideleg & 0x222` (R54, R55). -/
def State.sViewMask (s : State) : Word := s.midelegWord &&& 0x222#64

/-- *mstatus*.TSR, bit 22 of *mstatus* and so bit 9 of `mstatus_hi` (R32, R121; notes/assumptions/14.md). -/
def State.tsr (s : State) : Bool := s.mstatus.hi.getLsbD 9

end Sys2Proof.Machine
end

