-- ==== Sys2Proof/Machine/Operands.lean ====
section
/-! DEFINITION. The operands of the instructions: general registers and the 5-bit immediate (10_state.md R22,
30_encoding.md R103), and the writes each instruction ends with. -/

namespace Sys2Proof.Machine

/-- `x[i]`: `x0` reads 0 (R22). -/
def State.readX (s : State) (i : RegIdx) : Word :=
  if h : i.val = 0 then 0#64 else s.x[i.val - 1]

/-- `x[i] <- v`: a write to `x0` is discarded (R22). -/
def State.writeX (s : State) (i : RegIdx) (v : Word) : State :=
  { s with x := if h : i.val = 0 then s.x else s.x.set (i.val - 1) v }

/-- `uimm` zero-extended to 64 bits (R103). -/
def uimmWord (u : BitVec 5) : Word := u.setWidth 64

/-- `does_write` of a register set or clear form: the register number is not 0 (R133). -/
def regFormWrites (rs1 : RegIdx) : Bool := decide (rs1.val ≠ 0)

/-- `does_write` of an immediate set or clear form: `uimm` is not 0 (R133). -/
def immFormWrites (u : BitVec 5) : Bool := decide (u ≠ 0#5)

/-- `pc <- pc + 4`, wrapping (R20), and the model's draw counter moves on (notes/assumptions/13.md). -/
def State.advance (s : State) : State := { s with pc := s.pc + 4#64, draws := s.draws + 1 }

/-- What a CSR instruction does beside writing its CSR: `x[rd] <- v` and `pc <- pc + 4` (R134 to R139). -/
def State.retire (s : State) (rd : RegIdx) (v : Word) : State := (s.writeX rd v).advance

end Sys2Proof.Machine
end

