-- ==== Sys2Proof/Machine/Ops.lean ====
section
/-! DEFINITION. Taking a trap and returning from one (60_exceptions.md sections 5, 6 and 9,
40_trap_return.md). One shared operation takes every interrupt and every exception. -/

namespace Sys2Proof.Machine

/-- The six interrupt causes (60_exceptions.md R160, R182). -/
inductive IntCause where
  | supervisorSoftware
  | machineSoftware
  | supervisorTimer
  | machineTimer
  | supervisorExternal
  | machineExternal
deriving DecidableEq, Repr

/-- The code of an interrupt cause, which is also its bit in *mie* and *mip* (R33, R36, R182). -/
def intCode : IntCause → Nat
  | .supervisorSoftware => 1
  | .machineSoftware => 3
  | .supervisorTimer => 5
  | .machineTimer => 7
  | .supervisorExternal => 9
  | .machineExternal => 11

/-- The synchronous exceptions of the source's table (R181). The model raises the first, the third, the
fourth and the three environment calls; the others have names and codes only. -/
inductive ExcCause where
  | instructionAddressMisaligned
  | instructionAccessFault
  | illegalInstruction
  | breakpoint
  | loadAddressMisaligned
  | loadAccessFault
  | storeAddressMisaligned
  | storeAccessFault
  | environmentCallFromU
  | environmentCallFromS
  | environmentCallFromM
  | instructionPageFault
  | loadPageFault
  | storePageFault
deriving DecidableEq, Repr

/-- The code of a synchronous exception (R181). -/
def excCode : ExcCause → Nat
  | .instructionAddressMisaligned => 0
  | .instructionAccessFault => 1
  | .illegalInstruction => 2
  | .breakpoint => 3
  | .loadAddressMisaligned => 4
  | .loadAccessFault => 5
  | .storeAddressMisaligned => 6
  | .storeAccessFault => 7
  | .environmentCallFromU => 8
  | .environmentCallFromS => 9
  | .environmentCallFromM => 11
  | .instructionPageFault => 12
  | .loadPageFault => 13
  | .storePageFault => 15

/-- What caused a trap (R16, "trap"). -/
inductive Cause where
  | interrupt (i : IntCause)
  | exception (e : ExcCause)
deriving DecidableEq, Repr

/-- The value *mcause* or *scause* receives: bit 63 for an interrupt, the code below it (R40, R41, R43). -/
def causeWord : Cause → Word
  | .interrupt i => 0x8000000000000000#64 ||| BitVec.ofNat 64 (intCode i)
  | .exception e => BitVec.ofNat 64 (excCode e)

/-- The mode a trap is taken into: machine, or supervisor by delegation (R164, R190). -/
inductive Level where
  | machine
  | supervisor
deriving DecidableEq, Repr

/-- MODE, bits `[1:0]` of a trap vector register (R44). -/
def tvecMode (tvec : Word) : BitVec 2 := tvec.extractLsb' 0 2

/-- `base`: the register with bits `[1:0]` replaced by 0 (R46). -/
def tvecBase (tvec : Word) : Word := tvec &&& ~~~0x3#64

/-- `base` is a multiple of 128 (R46, R177). -/
def baseAligned128 (base : Word) : Bool := base &&& 0x7F#64 == 0#64

/-- The offset of a vector-table slot: four times the cause for an interrupt, 0 for a synchronous exception
(R176, R179). -/
def vectorOffset : Cause → Word
  | .interrupt i => BitVec.ofNat 64 (4 * intCode i)
  | .exception _ => 0#64

/-- `trap_target` (R175 to R177, R179): `base` in Direct mode, a slot of the table in Vectored mode. A
Vectored base that is not a multiple of 128 is refused for every trap. -/
def trapTarget (tvec : Word) (c : Cause) : Except Refusal Word :=
  if tvecMode tvec = 0b00#2 then .ok (tvecBase tvec)
  else if tvecMode tvec = 0b01#2 then
    if baseAligned128 (tvecBase tvec) then .ok (tvecBase tvec + vectorOffset c)
    else .error .vectoredTrapMisalignedBase
  else .error .trapThroughReservedMode

/-- The trap vector register of a level (R174, R196). -/
def State.tvecOf (s : State) : Level → Word
  | .machine => s.mtvec
  | .supervisor => s.stvec

/-- Trap entry into machine mode with the target known, all right-hand sides on the old state (R174, R179). -/
def State.enterMachine (s : State) (c : Cause) (target : Word) : State :=
  { s with
    mstatus := { s.mstatus with mpie := s.mstatus.mie, mie := false, mpp := s.priv }
    mepc := s.pc
    mcause := causeWord c
    priv := .M
    pc := target }

/-- Trap entry into supervisor mode with the target known, all right-hand sides on the old state (R196). -/
def State.enterSupervisor (s : State) (c : Cause) (target : Word) : State :=
  { s with
    mstatus := { s.mstatus with spie := s.mstatus.sie, sie := false, spp := decide (s.priv = .S) }
    sepc := s.pc
    scause := causeWord c
    priv := .S
    pc := target }

/-- Trap entry into a level with the target known. -/
def State.enterLevel (s : State) : Level → Cause → Word → State
  | .machine => s.enterMachine
  | .supervisor => s.enterSupervisor

/-- TAKING A TRAP: the one operation every interrupt and every exception goes through (R174, R179, R196). -/
def enterTrap (lvl : Level) (c : Cause) (s : State) : Result :=
  match trapTarget (s.tvecOf lvl) c with
  | .ok target => .next (s.enterLevel lvl c target)
  | .error r => .refused r

/-- Where a synchronous exception is taken: supervisor mode if *medeleg* delegates its code and the hart is
below machine mode, machine mode otherwise (R192). -/
def excLevel (e : ExcCause) (s : State) : Level :=
  if s.priv ≠ .M ∧ s.medelegWord.getLsbD (excCode e) then .supervisor else .machine

/-- `raise E`: the instruction has no other effect and the exception is taken (R10, R179, R192). The value
offered to the trap-value register has no register to go to (R50; notes/assumptions/22.md). -/
def raise (e : ExcCause) (s : State) : Result :=
  enterTrap (excLevel e s) (.exception e) s

/-- The effect of MRET in machine mode (R120). -/
def State.returnMachine (s : State) : State :=
  { s with
    priv := s.mstatus.mpp
    mstatus :=
      { s.mstatus with mie := s.mstatus.mpie, mpie := true, mpp := s.cfg.leastMode }
    pc := s.mepc }

/-- The effect of SRET where it is legal (R121). -/
def State.returnSupervisor (s : State) : State :=
  { s with
    priv := if s.mstatus.spp then .S else .U
    mstatus := { s.mstatus with sie := s.mstatus.spie, spie := true, spp := false }
    pc := s.sepc }

end Sys2Proof.Machine
end

