-- ==== Sys2Proof/Machine/CsrFile.lean ====
section
/-! DEFINITION. The CSRs as the CSR instructions see them: `CsrRead` (41_csr_access.md R131), `CsrOld` and
`CsrWrite` (R132), the access check (R133). -/

namespace Sys2Proof.Machine

/-- `CsrRead(a)` (R131). Bits `[63:13]` of *sstatus* are a drawn value (R53). -/
def csrRead (s : State) : Csr → Word
  | .mstatus => s.mstatusWord
  | .mie => s.mieWord
  | .mip => s.mipWord
  | .mcause => s.mcause
  | .mtvec => s.mtvec
  | .mepc => s.mepc
  | .mideleg => s.midelegWord
  | .medeleg => s.medelegWord
  | .sstatus => Config.drawSstatusHi s.draws ++ (s.mstatusWord &&& 0x122#64).extractLsb' 0 13
  | .sie => s.mieWord &&& s.sViewMask
  | .sip => s.mipWord &&& s.sViewMask
  | .stvec => s.stvec
  | .sepc => s.sepc
  | .scause => s.scause

/-- `CsrOld(a)`: the old value of a set or clear, which for *mip* and *sip* has `seip_sw` alone in bit 9
(R132, R60). -/
def csrOld (s : State) : Csr → Word
  | .mip => s.mipWith s.seipSw
  | .sip => s.mipWith s.seipSw &&& s.sViewMask
  | c => csrRead s c

/-- The (Interrupt, code) pairs that are not Reserved in the source's table (R42, R181, R182). -/
def causeLegal (v : Word) : Bool :=
  if v.getLsbD 63 then
    decide ((v.extractLsb' 0 63).toNat ∈ [1, 3, 5, 7, 9, 11])
  else
    decide ((v.extractLsb' 0 63).toNat ∈ [0, 1, 2, 3, 4, 5, 6, 7, 8, 9, 11, 12, 13, 15])

/-- What *mcause* or *scause* holds after a software write of `v`: `v` if it is a legal pair, else the Interrupt
bit as written and a drawn Exception Code (R41, R42, R132, D30; notes/assumptions/11.md). -/
def causeWritten (s : State) (v : Word) : Word :=
  if causeLegal v then v else v.extractLsb' 63 1 ++ Config.drawCause s.draws

/-- A value of a trap vector register made legal: writable BASE bits, MODE 0 or 1 (R45, R47). -/
def legalTvec (cfg : Config) (v : Word) : Word :=
  (v &&& ~~~0x3#64 &&& cfg.baseMaskWord) ||| (v &&& 0x1#64)

/-- What *mtvec* or *stvec* holds after a software write of `v` over `old`, if the write has a meaning: a
reserved MODE needs `legalize_mtvec` (R47, R56), whose free value is kept legal (notes/assumptions/9.md). -/
def tvecWritten? (cfg : Config) (old v : Word) : Option Word :=
  if v.extractLsb' 0 2 < 2#2 then
    some ((v &&& ~~~0x3#64 &&& cfg.baseMaskWord) ||| (v.extractLsb' 0 2).setWidth 64)
  else if cfg.legalizeMtvecSupplied then some (legalTvec cfg (Config.legalizeMtvec old v))
  else none

/-- `legalize_mpp(old, written)`: the old value, unless another function is supplied, whose free value is
kept to the modes the hart has (R30, D34; notes/assumptions/10.md). -/
def mppLegalized (cfg : Config) (old : Priv) (written : BitVec 2) : Priv :=
  if cfg.legalizeMppSupplied && cfg.implements (Config.legalizeMpp old written) then
    Config.legalizeMpp old written
  else old

/-- What MPP holds after a software write of `written` over `old` (R30, R132). -/
def mppWritten (cfg : Config) (old : Priv) (written : BitVec 2) : Priv :=
  match Priv.ofCode? written with
  | some p => if cfg.implements p then p else mppLegalized cfg old written
  | none => mppLegalized cfg old written

/-- *mstatus* after a software write of `v` (R132). -/
def mstatusWritten (s : State) (v : Word) : Mstatus where
  sie := s.sBit (v.getLsbD 1)
  mie := v.getLsbD 3
  spie := s.sBit (v.getLsbD 5)
  mpie := v.getLsbD 7
  spp := s.sBit (v.getLsbD 8)
  mpp := mppWritten s.cfg s.mstatus.mpp (v.extractLsb' 11 2)
  hi := v.extractLsb' 13 51 &&& s.cfg.mstatusHiMask

/-- `CsrWrite(a, v)` (R132), on a state in which the CSR exists. -/
def csrWrite (s : State) (v : Word) : Csr → Result
  | .mstatus => .next { s with mstatus := mstatusWritten s v }
  | .mie => .next { s with mie := v &&& s.mieMask }
  | .mip =>
    .next { s with
      ssip := if s.cfg.hasS then v.getLsbD 1 else s.ssip
      stip := if s.cfg.hasS then v.getLsbD 5 else s.stip
      seipSw := if s.cfg.hasS then v.getLsbD 9 else s.seipSw }
  | .mcause => .next { s with mcause := causeWritten s v }
  | .mtvec =>
    match tvecWritten? s.cfg s.mtvec v with
    | some t => .next { s with mtvec := t }
    | none => .refused .tvecWriteReservedMode
  | .mepc => .next { s with mepc := v &&& ~~~s.cfg.lowPcBits }
  | .mideleg => .next { s with mideleg := v &&& s.cfg.midelegMask }
  | .medeleg => .next { s with medeleg := v &&& s.cfg.medelegMask }
  | .sstatus =>
    .next { s with
      mstatus := { s.mstatus with sie := v.getLsbD 1, spie := v.getLsbD 5, spp := v.getLsbD 8 } }
  | .sie => .next { s with mie := (s.mie &&& ~~~s.sViewMask) ||| (v &&& s.sViewMask) }
  | .sip => .next { s with ssip := if s.midelegWord.getLsbD 1 then v.getLsbD 1 else s.ssip }
  | .stvec =>
    match tvecWritten? s.cfg s.stvec v with
    | some t => .next { s with stvec := t }
    | none => .refused .tvecWriteReservedMode
  | .sepc => .next { s with sepc := v &&& ~~~s.cfg.lowPcBits }
  | .scause => .next { s with scause := causeWritten s v }

/-- What the access check answers (R133). -/
inductive CsrAccess where
  /-- The number is not one of R23. -/
  | outside
  /-- The access raises an illegal-instruction exception. -/
  | illegal
  /-- The access goes to this CSR. -/
  | allowed (c : Csr)
deriving DecidableEq, Repr

/-- The access check, made before any read or write, its lines in R133's order. -/
def csrCheck (s : State) (n : BitVec 12) (doesWrite : Bool) : CsrAccess :=
  match csrOfNumber? n with
  | none => .outside
  | some c =>
    if csrIsAnnex c && !s.cfg.hasS then .illegal
    else if s.priv.code < csrLowestMode n then .illegal
    else if doesWrite && csrIsReadOnly n then .illegal
    else .allowed c

/-- Go on from a next state; a stop stays the stop it is. -/
def mapNext (r : Result) (f : State → State) : Result :=
  match r with
  | .next t => .next (f t)
  | .fault e => .fault e
  | .refused e => .refused e

/-- A CSR instruction: the access check, then `body` on the CSR it allows (R133). -/
def csrAccess (s : State) (n : BitVec 12) (doesWrite : Bool) (body : Csr → Result) : Result :=
  match csrCheck s n doesWrite with
  | .outside => .refused .csrOutsideSpec
  | .illegal => raise .illegalInstruction s
  | .allowed c => body c

/-- Read and write: `x[rd] <- CsrRead(csr)`, `CsrWrite(csr, v)`, `pc <- pc + 4`, every right-hand side on the
state before (R134, R137). With `rd = x0` R134 reads nothing; a read has no side effect (R131) and `writeX`
discards its value, so the two are the same. -/
def csrReadWrite (s : State) (rd : RegIdx) (n : BitVec 12) (v : Word) : Result :=
  csrAccess s n true (fun c => mapNext (csrWrite s v c) (fun t => t.retire rd (csrRead s c)))

/-- Read and modify: `x[rd] <- CsrRead(csr)`, then, if the form writes, `CsrWrite(csr, f (CsrOld(csr)))`, and
`pc <- pc + 4` (R135, R136, R138, R139). -/
def csrReadModify (s : State) (rd : RegIdx) (n : BitVec 12) (doesWrite : Bool) (f : Word → Word) : Result :=
  csrAccess s n doesWrite (fun c =>
    if doesWrite then mapNext (csrWrite s (f (csrOld s c)) c) (fun t => t.retire rd (csrRead s c))
    else .next (s.retire rd (csrRead s c)))

end Sys2Proof.Machine
end

