-- ==== Sys2Proof/Machine/CsrInstructions.lean ====
section
/-! DEFINITION. The six CSR access instructions (41_csr_access.md R134 to R139). -/

namespace Sys2Proof.Machine

/-- CSRRW, atomic read and write (R134). -/
def execCsrrw (rd : RegIdx) (csr : BitVec 12) (rs1 : RegIdx) (s : State) : Result :=
  csrReadWrite s rd csr (s.readX rs1)

/-- CSRRS, atomic read and set bits (R135). -/
def execCsrrs (rd : RegIdx) (csr : BitVec 12) (rs1 : RegIdx) (s : State) : Result :=
  csrReadModify s rd csr (regFormWrites rs1) (fun old => old ||| s.readX rs1)

/-- CSRRC, atomic read and clear bits (R136). -/
def execCsrrc (rd : RegIdx) (csr : BitVec 12) (rs1 : RegIdx) (s : State) : Result :=
  csrReadModify s rd csr (regFormWrites rs1) (fun old => old &&& ~~~(s.readX rs1))

/-- CSRRWI, atomic read and write immediate (R137). -/
def execCsrrwi (rd : RegIdx) (csr : BitVec 12) (uimm : BitVec 5) (s : State) : Result :=
  csrReadWrite s rd csr (uimmWord uimm)

/-- CSRRSI, atomic read and set bits immediate (R138). -/
def execCsrrsi (rd : RegIdx) (csr : BitVec 12) (uimm : BitVec 5) (s : State) : Result :=
  csrReadModify s rd csr (immFormWrites uimm) (fun old => old ||| uimmWord uimm)

/-- CSRRCI, atomic read and clear bits immediate (R139). -/
def execCsrrci (rd : RegIdx) (csr : BitVec 12) (uimm : BitVec 5) (s : State) : Result :=
  csrReadModify s rd csr (immFormWrites uimm) (fun old => old &&& ~~~(uimmWord uimm))

end Sys2Proof.Machine
end

