-- ==== Sys2Proof/Machine/EnvironmentCall.lean ====
section
/-! DEFINITION. Environment call and breakpoint (42_env_call_breakpoint.md R150, R151). -/

namespace Sys2Proof.Machine

/-- The exception ECALL raises in a mode (R150). -/
def ecallCause : Priv → ExcCause
  | .U => .environmentCallFromU
  | .S => .environmentCallFromS
  | .M => .environmentCallFromM

/-- ECALL (R150). -/
def execEcall (s : State) : Result := raise (ecallCause s.priv) s

/-- EBREAK (R151). -/
def execEbreak (s : State) : Result := raise .breakpoint s

end Sys2Proof.Machine
end

