-- ==== Sys2Proof/Machine/TrapReturn.lean ====
section
/-! DEFINITION. The trap-return instructions (40_trap_return.md R120, R121). -/

namespace Sys2Proof.Machine

/-- MRET (R120): illegal below machine mode. -/
def execMret (s : State) : Result :=
  if s.priv ≠ .M then raise .illegalInstruction s
  else .next s.returnMachine

/-- SRET (R121): illegal without supervisor mode, in user mode, and, as the rule says of the chip, in
supervisor mode while *mstatus*.TSR is 1 (notes/assumptions/14.md). -/
def execSret (s : State) : Result :=
  if !s.cfg.hasS then raise .illegalInstruction s
  else if s.priv = .U then raise .illegalInstruction s
  else if s.priv = .S ∧ s.tsr then raise .illegalInstruction s
  else .next s.returnSupervisor

end Sys2Proof.Machine
end

