-- ==== Sys2Proof/Machine/Interrupts.lean ====
section
/-! DEFINITION. The take condition and the selection among takeable interrupts (60_exceptions.md sections 3
and 4, R169 to R173, R191, R193, R194). -/

namespace Sys2Proof.Machine

/-- The causes from highest to lowest priority: 11, 3, 7, 9, 1, 5 (R171). -/
def priorityOrder : List IntCause :=
  [.machineExternal, .machineSoftware, .machineTimer, .supervisorExternal, .supervisorSoftware,
    .supervisorTimer]

/-- `pend(i)`: pending and individually enabled (R165, R166, R169). -/
def pend (s : State) (i : IntCause) : Bool :=
  s.mipWord.getLsbD (intCode i) && s.mieWord.getLsbD (intCode i)

/-- `mlevel(i)`: not delegated (R169, R191). -/
def mLevel (s : State) (i : IntCause) : Bool := !s.midelegWord.getLsbD (intCode i)

/-- `m_on`: machine-level interrupts are globally enabled (R168, R169). -/
def machineOn (s : State) : Bool :=
  (decide (s.priv = .M) && s.mstatus.mie) || decide (s.priv = .S) || decide (s.priv = .U)

/-- `s_on`: delegated interrupts are globally enabled (R169, R193). -/
def supervisorOn (s : State) : Bool :=
  (decide (s.priv = .S) && s.mstatus.sie) || decide (s.priv = .U)

/-- `takeable(i)` (R169). -/
def takeable (s : State) (i : IntCause) : Bool :=
  pend s i && ((mLevel s i && machineOn s) || (!mLevel s i && supervisorOn s))

/-- `select()`: the interrupt to take and the level it goes to, machine-level causes first (R173, R194). -/
def select (s : State) : Option (IntCause × Level) :=
  match priorityOrder.find? (fun i => takeable s i && mLevel s i) with
  | some i => some (i, .machine)
  | none =>
    match priorityOrder.find? (fun i => takeable s i && !mLevel s i) with
    | some i => some (i, .supervisor)
    | none => none

/-- The interrupt a hart step takes, if it takes one: a selected one, if interrupts are eager or the scheduler
chooses to (R14 step 2, R170). -/
def interruptTaken (s : State) (choose : Bool) : Option (IntCause × Level) :=
  if s.cfg.eager || choose then select s else none

end Sys2Proof.Machine
end

