-- ==== Sys2Proof/Machine/Hart.lean ====
section
/-! DEFINITION. A turn of each agent: the hart's step with its fetch (00_scope.md R14, 20_memory.md R83,
R86, R95), the CLINT, the PLIC and reset (R13, R230), and the order the agenda gives them. -/

namespace Sys2Proof.Machine

/-- The refusal of a word the decoder rejects (R104, R109). The fetch gives four bytes, so `tooShort` does
not arise; it stands with the fetches that find no word. -/
def refusalOfDecode : DecodeError → Refusal
  | .tooShort => .fetchOutsideMemory
  | .sixteenBit => .sixteenBitInstruction
  | .notSystem => .instructionOutsideSpec
  | .systemEncoding => .systemEncodingOutsideSpec

/-- `pc` is a multiple of IALIGN/8 (R86). -/
def pcAligned (s : State) : Bool := s.pc &&& s.cfg.lowPcBits == 0#64

/-- Steps 4 to 6 of R14: fetch, decode, execute. -/
def fetchAndExecute (s : State) : Result :=
  match readBytes4? s.mem s.pc with
  | none => .refused .fetchOutsideMemory
  | some bytes =>
    match decodeBytes bytes with
    | .error e => .refused (refusalOfDecode e)
    | .ok (i, _) => exec i s

/-- The hart's step (R14). -/
def hartStep (choose : Bool) (s : State) : Result :=
  match interruptTaken s choose with
  | some (i, lvl) => enterTrap lvl (.interrupt i) s
  | none =>
    if pcAligned s then fetchAndExecute s
    else raise .instructionAddressMisaligned s

/-- The CLINT sets its lines (R161). -/
def State.clintTurn (s : State) (msip mtip : Bool) : State :=
  { s with lines := { s.lines with msip := msip, mtip := mtip } }

/-- The PLIC sets its lines (R162). -/
def State.plicTurn (s : State) (meip seip : Bool) : State :=
  { s with lines := { s.lines with meip := meip, seip := seip } }

/-- The environment resets the hart (R230): R61's values; the wires, the program text and the parameters are
not the hart's to lose (notes/assumptions/27.md). -/
def State.resetTurn (s : State) (u : ResetDraw) : State :=
  State.afterReset s.cfg s.lines s.mem s.agenda s.draws u

/-- The turn scheduled next is over. -/
def State.popTurn (s : State) : State := { s with agenda := s.agenda.tail }

/-- One turn: the agent the agenda names, or the hart, eager, when the agenda is empty (R13, R170;
notes/assumptions/15.md). -/
def nextTurn (s : State) : Result :=
  match s.agenda with
  | [] => hartStep true s
  | .hart choose :: _ => hartStep choose s.popTurn
  | .clint msip mtip :: _ => .next (s.popTurn.clintTurn msip mtip)
  | .plic meip seip :: _ => .next (s.popTurn.plicTurn meip seip)
  | .reset u :: _ => .next (s.popTurn.resetTurn u)

/-- The state with a table row's word stored at `pc` and the next turn given to the hart, the scheduler
choosing not to interrupt (notes/assumptions/16.md). -/
def placeFetchWord (s : State) (nbits w : Nat) : State :=
  { s with
    mem := writeBytes s.mem s.pc (bytesOfWord (tableWord nbits w))
    agenda := .hart false :: s.agenda }

end Sys2Proof.Machine
end

