-- ==== Sys2Proof/Laws/PerInstr.lean ====
section
/-! SUPPORT. A fact about every instruction as syntax, one lemma for each constructor: the word `encode`
writes is a word of the instruction's own row of 30_encoding.md R105. -/

namespace Sys2Proof.Laws

/-- A row of R105: a word `w` is of the row when `w &&& mask = pattern`. -/
structure Row where
  pattern : InstrWord
  mask : InstrWord
deriving DecidableEq, Repr

/-- The row of an instruction, its `match` and `mask` as the table of R105 gives them. -/
def rowOf : Instr → Row
  | .ecall => ⟨0x00000073#32, 0xFFFFFFFF#32⟩
  | .ebreak => ⟨0x00100073#32, 0xFFFFFFFF#32⟩
  | .sret => ⟨0x10200073#32, 0xFFFFFFFF#32⟩
  | .mret => ⟨0x30200073#32, 0xFFFFFFFF#32⟩
  | .csrrw _ _ _ => ⟨0x00001073#32, 0x0000707F#32⟩
  | .csrrs _ _ _ => ⟨0x00002073#32, 0x0000707F#32⟩
  | .csrrc _ _ _ => ⟨0x00003073#32, 0x0000707F#32⟩
  | .csrrwi _ _ _ => ⟨0x00005073#32, 0x0000707F#32⟩
  | .csrrsi _ _ _ => ⟨0x00006073#32, 0x0000707F#32⟩
  | .csrrci _ _ _ => ⟨0x00007073#32, 0x0000707F#32⟩

/-- Bits 0 to 6 and 12 to 14 of an assembled word are the opcode and `funct3`, whatever the operands. -/
theorem assemble_and_mask (upper : BitVec 12) (mid rd : BitVec 5) (f : BitVec 3) :
    assemble upper mid f rd &&& 0x0000707F#32 = (f.setWidth 32 <<< 12) ||| 0x73#32 := by
  apply BitVec.eq_of_getElem_eq
  intro k hk
  simp only [assemble, opcodeSystem, BitVec.getElem_and, BitVec.getElem_append]
  interval_cases k <;> simp

namespace TableRow

/-- The instruction's word is of its own row. -/
def Statement (i : Instr) : Prop := encode i &&& (rowOf i).mask = (rowOf i).pattern

theorem ecall : Statement .ecall := by unfold Statement; decide
theorem ebreak : Statement .ebreak := by unfold Statement; decide
theorem sret : Statement .sret := by unfold Statement; decide
theorem mret : Statement .mret := by unfold Statement; decide
theorem csrrw (rd : RegIdx) (csr : BitVec 12) (rs1 : RegIdx) : Statement (.csrrw rd csr rs1) :=
  (assemble_and_mask csr _ _ _).trans rfl
theorem csrrs (rd : RegIdx) (csr : BitVec 12) (rs1 : RegIdx) : Statement (.csrrs rd csr rs1) :=
  (assemble_and_mask csr _ _ _).trans rfl
theorem csrrc (rd : RegIdx) (csr : BitVec 12) (rs1 : RegIdx) : Statement (.csrrc rd csr rs1) :=
  (assemble_and_mask csr _ _ _).trans rfl
theorem csrrwi (rd : RegIdx) (csr : BitVec 12) (uimm : BitVec 5) : Statement (.csrrwi rd csr uimm) :=
  (assemble_and_mask csr _ _ _).trans rfl
theorem csrrsi (rd : RegIdx) (csr : BitVec 12) (uimm : BitVec 5) : Statement (.csrrsi rd csr uimm) :=
  (assemble_and_mask csr _ _ _).trans rfl
theorem csrrci (rd : RegIdx) (csr : BitVec 12) (uimm : BitVec 5) : Statement (.csrrci rd csr uimm) :=
  (assemble_and_mask csr _ _ _).trans rfl

end TableRow

end Sys2Proof.Laws
end

