-- ==== Sys2Proof/Safety.lean ====
section
/-! DEFINITION. What counts as a safe run, and where a run ends (93_implementation_defined.md Part 1b,
92_eei_decisions.md D35). -/

namespace Sys2Proof

/-- A run of `n` steps from `s` in which the model refuses nothing: "A proof can be made only about runs in
which none occurs" (93_implementation_defined.md Part 1b). -/
def RefusalFree : Nat → Machine.State → Bool
  | 0, _ => true
  | n + 1, s =>
    match Machine.step s with
    | .next t => RefusalFree n t
    | .fault _ => false
    | .refused _ => false

/-- The state in which a run from `s` first has `pc` at `endPc`, if it is reached within `n` steps and no step
before it stops (END_PC, R7, D35). -/
def endState? (endPc : Word) : Nat → Machine.State → Option Machine.State
  | n, s =>
    if s.pc = endPc then some s
    else match n with
      | 0 => none
      | n + 1 =>
        match Machine.step s with
        | .next t => endState? endPc n t
        | .fault _ => none
        | .refused _ => none

/-- The legal states: what the spec says the registers can hold. Every state a run reaches is one, and so is
every state reset gives. -/
structure Legal (s : Machine.State) : Prop where
  /-- The parameters are a configuration the spec allows. -/
  cfg : s.cfg.legal = true
  /-- `pc` is a multiple of IALIGN/8 (R20, R86). -/
  pc : s.pc &&& s.cfg.lowPcBits = 0#64
  /-- The mode is one the hart has (R21). -/
  priv : s.cfg.implements s.priv = true
  /-- MPP holds a mode the hart has (R30, R120 f). -/
  mpp : s.cfg.implements s.mstatus.mpp = true
  /-- *mie* stores its enables and nothing else (R33 to R35). -/
  mie : s.mie &&& ~~~s.mieMask = 0#64
  /-- *mideleg* and *medeleg* store their writable bits and nothing else (R51, R52). -/
  mideleg : s.mideleg &&& ~~~s.cfg.midelegMask = 0#64
  medeleg : s.medeleg &&& ~~~s.cfg.medelegMask = 0#64
  /-- The trap vectors never hold a reserved MODE (R45, R47, R177 a). -/
  mtvec : s.mtvec.getLsbD 1 = false
  stvec : s.stvec.getLsbD 1 = false
  /-- *mepc* and *sepc* hold instruction addresses (R49, R57). -/
  mepc : s.mepc &&& s.cfg.lowPcBits = 0#64
  sepc : s.sepc &&& s.cfg.lowPcBits = 0#64
  /-- Without supervisor mode the supervisor bits are 0 (R199). -/
  noS : s.cfg.hasS = false →
    s.mstatus.sie = false ∧ s.mstatus.spie = false ∧ s.mstatus.spp = false ∧ s.ssip = false ∧
      s.stip = false ∧ s.seipSw = false ∧ s.mideleg = 0#64 ∧ s.medeleg = 0#64
  /-- Memory is in canonical form (R80). -/
  mem : Machine.Memory.wf s.mem = true

end Sys2Proof
end

