-- ==== Sys2Proof/Certificates/Slice0/Obligations.lean ====
section
/-! DEFINITION. The statements for the provers. Each docstring names the sentence of spec/ it formalises; the
names used by several statements come first. Where a statement rests on a decision or an inference the spec
marks as its own, the docstring says so. -/

namespace Sys2Proof.Claims

open Sys2Proof.Machine

/-- The CSR state of `t` is that of `w`. -/
def sameCsrs (t w : State) : Prop :=
  t.mstatus = w.mstatus ∧ t.mie = w.mie ∧ t.ssip = w.ssip ∧ t.stip = w.stip ∧ t.seipSw = w.seipSw ∧
    t.mcause = w.mcause ∧ t.mtvec = w.mtvec ∧ t.mepc = w.mepc ∧ t.mideleg = w.mideleg ∧
    t.medeleg = w.medeleg ∧ t.stvec = w.stvec ∧ t.sepc = w.sepc ∧ t.scause = w.scause

/-- What no instruction but a trap or a return touches: the mode; and what none touches at all: the parameters,
the wires, every byte of memory, the agenda. -/
def sameWorld (t s : State) : Prop :=
  t.priv = s.priv ∧ t.cfg = s.cfg ∧ t.lines = s.lines ∧ t.agenda = s.agenda ∧
    ∀ a, readByte? t.mem a = readByte? s.mem a

/-- `t` is the end of a CSR instruction begun in `s`: `rd` holds `v` (`x0` still 0), every other general register
is unchanged, `pc` has moved on by 4, the CSRs are those of `w`, and the rest is unchanged. -/
def retiredAs (s w t : State) (rd : RegIdx) (v : Word) : Prop :=
  t.readX rd = (if rd = 0 then 0#64 else v) ∧ (∀ r, r ≠ rd → t.readX r = s.readX r) ∧
    t.pc = s.pc + 4#64 ∧ sameCsrs t w ∧ sameWorld t s

/-- The mode may access the CSR, and the CSR exists (R133). -/
def accessAllowed (s : State) (c : Csr) : Prop :=
  (csrIsAnnex c = true → s.cfg.hasS = true) ∧ csrLowestMode (csrNumber c) ≤ s.priv.code

/-- The write has a meaning: a reserved MODE written to a trap vector needs `legalize_mtvec` (R47, R56). -/
def writeMeaningful (s : State) (c : Csr) (v : Word) : Prop :=
  c = .mtvec ∨ c = .stvec → v.extractLsb' 0 2 < 2#2 ∨ s.cfg.legalizeMtvecSupplied = true

/-- A trap vector a trap can go through: Direct, or Vectored with a base that is a multiple of 128 (R175 to
R177). -/
def tvecUsable (v : Word) : Prop :=
  v.extractLsb' 0 2 = 0#2 ∨ (v.extractLsb' 0 2 = 1#2 ∧ v &&& 0x7C#64 = 0#64)

/-- *medeleg* sends code `c` to supervisor mode, on a hart below machine mode (R192). -/
def delegatedException (s : State) (c : Nat) : Prop :=
  s.priv ≠ .M ∧ s.cfg.hasS = true ∧ s.medeleg.getLsbD c = true

/-- `s` after a synchronous exception with code `c` is taken into machine mode: the assignments of R179. -/
def exceptionIntoM (s : State) (c : Word) : State :=
  { s with
    mstatus := { s.mstatus with mpie := s.mstatus.mie, mie := false, mpp := s.priv }
    mepc := s.pc
    mcause := c
    priv := .M
    pc := s.mtvec &&& ~~~0x3#64 }

/-- `s` after a delegated synchronous exception with code `c` is taken into supervisor mode: the assignments of
R196. -/
def exceptionIntoS (s : State) (c : Word) : State :=
  { s with
    mstatus := { s.mstatus with spie := s.mstatus.sie, sie := false, spp := decide (s.priv = .S) }
    sepc := s.pc
    scause := c
    priv := .S
    pc := s.stvec &&& ~~~0x3#64 }

/-- `s` after interrupt cause `i` is taken into machine mode: the assignments of R174. -/
def interruptIntoM (s : State) (i : IntCause) : State :=
  { s with
    mstatus := { s.mstatus with mpie := s.mstatus.mie, mie := false, mpp := s.priv }
    mepc := s.pc
    mcause := 0x8000000000000000#64 ||| BitVec.ofNat 64 (intCode i)
    priv := .M
    pc := (s.mtvec &&& ~~~0x3#64) +
      (if s.mtvec.getLsbD 0 then BitVec.ofNat 64 (4 * intCode i) else 0#64) }

/-- `s` after the delegated interrupt cause `i` is taken into supervisor mode: the assignments of R196. -/
def interruptIntoS (s : State) (i : IntCause) : State :=
  { s with
    mstatus := { s.mstatus with spie := s.mstatus.sie, sie := false, spp := decide (s.priv = .S) }
    sepc := s.pc
    scause := 0x8000000000000000#64 ||| BitVec.ofNat 64 (intCode i)
    priv := .S
    pc := (s.stvec &&& ~~~0x3#64) +
      (if s.stvec.getLsbD 0 then BitVec.ofNat 64 (4 * intCode i) else 0#64) }

/-- The exception with code `c` and nothing else is what `r` does in `s`: into supervisor mode where it is
delegated, into machine mode where it is not, through a usable trap vector. -/
def takesException (r : Result) (s : State) (c : Nat) : Prop :=
  (¬ delegatedException s c → tvecUsable s.mtvec → r = .next (exceptionIntoM s (BitVec.ofNat 64 c))) ∧
    (delegatedException s c → tvecUsable s.stvec → r = .next (exceptionIntoS s (BitVec.ofNat 64 c)))

/-- The exception with code 2 and nothing else (R110, R133). -/
def takesIllegalInstruction (r : Result) (s : State) : Prop := takesException r s 2

/-- An exception with code `c` is what instruction `i` does in `s`: the environment calls, the breakpoint, and code 2
for a return or a CSR access that its mode may not make (R120, R121, R133, R150, R151). Code 2 for SRET in supervisor
mode with TSR = 1 is the model's reading of R121's comment (notes/assumptions/14.md). -/
def exceptionDue (i : Instr) (s : State) (c : Nat) : Prop :=
  match i with
  | .ecall => c = 8 + s.priv.code.toNat
  | .ebreak => c = 3
  | .mret => c = 2 ∧ s.priv ≠ .M
  | .sret => c = 2 ∧ (s.cfg.hasS = false ∨ s.priv = .U ∨ s.priv = .S ∧ s.mstatus.hi.getLsbD 9 = true)
  | .csrrw _ n _ => c = 2 ∧ ∃ k, n = csrNumber k ∧ ¬ accessAllowed s k
  | .csrrs _ n _ => c = 2 ∧ ∃ k, n = csrNumber k ∧ ¬ accessAllowed s k
  | .csrrc _ n _ => c = 2 ∧ ∃ k, n = csrNumber k ∧ ¬ accessAllowed s k
  | .csrrwi _ n _ => c = 2 ∧ ∃ k, n = csrNumber k ∧ ¬ accessAllowed s k
  | .csrrsi _ n _ => c = 2 ∧ ∃ k, n = csrNumber k ∧ ¬ accessAllowed s k
  | .csrrci _ n _ => c = 2 ∧ ∃ k, n = csrNumber k ∧ ¬ accessAllowed s k

/-- `v` is the trap vector the exception with code `c` goes through in `s`: *stvec* where it is delegated, *mtvec*
where it is not (R179, R196). -/
def exceptionVector (s : State) (c : Nat) (v : Word) : Prop :=
  (delegatedException s c → v = s.stvec) ∧ (¬ delegatedException s c → v = s.mtvec)

/-- The rows of the opcode table (R105). -/
def tableRows : List Laws.Row :=
  [⟨0x00000073#32, 0xFFFFFFFF#32⟩, ⟨0x00100073#32, 0xFFFFFFFF#32⟩, ⟨0x10200073#32, 0xFFFFFFFF#32⟩,
    ⟨0x30200073#32, 0xFFFFFFFF#32⟩, ⟨0x00001073#32, 0x0000707F#32⟩, ⟨0x00002073#32, 0x0000707F#32⟩,
    ⟨0x00003073#32, 0x0000707F#32⟩, ⟨0x00005073#32, 0x0000707F#32⟩, ⟨0x00006073#32, 0x0000707F#32⟩,
    ⟨0x00007073#32, 0x0000707F#32⟩]

/-- The place of a cause in the source's priority list, 0 the highest: 11, 3, 7, 9, 1, 5 (R171). -/
def priorityRank : IntCause → Nat
  | .machineExternal => 0
  | .machineSoftware => 1
  | .machineTimer => 2
  | .supervisorExternal => 3
  | .supervisorSoftware => 4
  | .supervisorTimer => 5

/-- The single pass over the source's list that R173 compares its two loops with. -/
def singlePass (s : State) : Option (IntCause × Level) :=
  (priorityOrder.find? (takeable s)).map (fun i => (i, if mLevel s i then .machine else .supervisor))

/-- The bits of the three read-only wires in *mip*: MSIP, MTIP and MEIP (R36, R37). -/
def wireBits (s : State) : Word :=
  (if s.lines.msip then 0x8#64 else 0#64) ||| (if s.lines.mtip then 0x80#64 else 0#64) |||
    (if s.lines.meip then 0x800#64 else 0#64)

/-- The old value of a set or clear, as R132 defines `CsrOld`: for *mip* `(CsrRead(0x344) & ~0x200) | (seip_sw << 9)`,
for *sip* that `& mideleg & 0x222`, `CsrRead(a)` otherwise. -/
def oldValue (s : State) : Csr → Word
  | .mip => (csrRead s .mip &&& ~~~0x200#64) ||| (if s.cfg.hasS && s.seipSw then 0x200#64 else 0#64)
  | .sip =>
    ((csrRead s .mip &&& ~~~0x200#64) ||| (if s.cfg.hasS && s.seipSw then 0x200#64 else 0#64)) &&&
      csrRead s .mideleg &&& 0x222#64
  | c => csrRead s c

/-- The value a CSR instruction on CSR `c` writes in `s`, if it writes: the operand for the read-and-write forms, the
old value with bits set or cleared for the others, nothing where `rs1` is `x0` or the immediate is 0. -/
def valueWritten? (i : Instr) (s : State) (c : Csr) : Option Word :=
  match i with
  | .csrrw _ _ rs1 => some (s.readX rs1)
  | .csrrs _ _ rs1 => if rs1 = 0 then none else some (oldValue s c ||| s.readX rs1)
  | .csrrc _ _ rs1 => if rs1 = 0 then none else some (oldValue s c &&& ~~~(s.readX rs1))
  | .csrrwi _ _ u => some (BitVec.ofNat 64 u.toNat)
  | .csrrsi _ _ u => if u = 0#5 then none else some (oldValue s c ||| BitVec.ofNat 64 u.toNat)
  | .csrrci _ _ u => if u = 0#5 then none else some (oldValue s c &&& ~~~(BitVec.ofNat 64 u.toNat))
  | .ecall => none
  | .ebreak => none
  | .sret => none
  | .mret => none

/-- `csr | rs1_or_uimm | funct3 | rd | 1110011`, the encoding each rule of R134 to R139 gives. -/
def csrWord (csr : BitVec 12) (mid : BitVec 5) (funct3 : BitVec 3) (rd : RegIdx) : InstrWord :=
  csr ++ mid ++ funct3 ++ BitVec.ofFin (w := 5) rd ++ 0b1110011#7

end Sys2Proof.Claims

open Sys2Proof Sys2Proof.Machine Sys2Proof.Claims

/-! ### Encoding -/

/-- Decode and encode agree: the bytes of every instruction, with every operand at every value, decode to that
instruction and leave the bytes after it (30_encoding.md section 3, 20_memory.md section 2). -/
def Obligations.DecodeOfEncodeIsTheInstruction : Prop :=
  ∀ (i : Instr) (rest : List Byte), decodeBytes (encodeBytes i ++ rest) = .ok (i, rest)

/-- Each word has one meaning: a word that decodes to an instruction is the word that instruction encodes to. -/
def Obligations.EncodeOfDecodeIsTheWord : Prop :=
  ∀ (w : InstrWord) (i : Instr), decodeWord w = .ok i → encode i = w

/-- R105: "`w` is the instruction when `(w & mask) == match`", for every row of the table, and "A CSR instruction
word is assembled as `(csr << 20) | (rs1_or_uimm << 15) | (funct3 << 12) | (rd << 7) | 0x73`". -/
def Obligations.WordIsTheInstructionWhenItMatchesTheRow : Prop :=
  (∀ r ∈ tableRows, ∀ w : InstrWord,
      (∃ i, decodeWord w = .ok i ∧ Laws.rowOf i = r) ↔ w &&& r.mask = r.pattern) ∧
    ∀ (rd rs1 : RegIdx) (n : BitVec 12) (u : BitVec 5),
      let word (mid : BitVec 5) (f : InstrWord) : InstrWord :=
        (n.setWidth 32 <<< 20) ||| (mid.setWidth 32 <<< 15) ||| (f <<< 12) |||
          ((BitVec.ofFin (w := 5) rd).setWidth 32 <<< 7) ||| 0x73#32
      encode (.csrrw rd n rs1) = word (.ofFin rs1) 1#32 ∧ encode (.csrrs rd n rs1) = word (.ofFin rs1) 2#32 ∧
        encode (.csrrc rd n rs1) = word (.ofFin rs1) 3#32 ∧ encode (.csrrwi rd n u) = word u 5#32 ∧
        encode (.csrrsi rd n u) = word u 6#32 ∧ encode (.csrrci rd n u) = word u 7#32

/-- A word of no row is refused by the name of R104 and R109 it falls under; it is no NOP and raises nothing
(30_encoding.md sections 1, 3 and 4, the spec's decisions D4 and D27). -/
def Obligations.WordsOfNoRowAreRefusedByName : Prop :=
  ∀ w : InstrWord, (∀ r ∈ tableRows, w &&& r.mask ≠ r.pattern) →
    decodeWord w = .error
      (if w &&& 0x3#32 ≠ 0x3#32 then .sixteenBit
        else if w &&& 0x7F#32 ≠ 0x73#32 then .notSystem else .systemEncoding)

/-- Words of 95_test_vectors.md K1 to K10, K13, K14 and K17, written out, decode as those rows say. -/
def Obligations.VectorWordsDecode : Prop :=
  decodeWord 0x00000073#32 = .ok .ecall ∧ decodeWord 0x00100073#32 = .ok .ebreak ∧
    decodeWord 0x10200073#32 = .ok .sret ∧ decodeWord 0x30200073#32 = .ok .mret ∧
    decodeWord 0x30529073#32 = .ok (.csrrw 0 0x305#12 5) ∧ decodeWord 0x344023F3#32 = .ok (.csrrs 7 0x344#12 0) ∧
    decodeWord 0x30433073#32 = .ok (.csrrc 0 0x304#12 6) ∧ decodeWord 0x304FD073#32 = .ok (.csrrwi 0 0x304#12 31#5) ∧
    decodeWord 0x30046073#32 = .ok (.csrrsi 0 0x300#12 8#5) ∧
    decodeWord 0x300472F3#32 = .ok (.csrrci 5 0x300#12 8#5) ∧
    decodeWord 0x302000F3#32 = .error .systemEncoding ∧ decodeWord 0x30004073#32 = .error .systemEncoding ∧
    decodeWord 0x00008082#32 = .error .sixteenBit

/-! ### The step -/

/-- A step runs the decoded instruction: when it is the hart's turn, no interrupt is taken, `pc` is aligned and
the four bytes at `pc` decode to `i`, the step is `exec i` on the state with the turn taken off the agenda
(00_scope.md R14 steps 3 to 6, the spec's decision D9).
The agenda of turns is the model's (notes/assumptions/15.md). -/
def Obligations.StepRunsTheDecodedInstruction : Prop :=
  ∀ (s : State) (choose : Bool) (bs rest : List Byte) (i : Instr),
    (s.agenda = [] ∧ choose = true ∨ ∃ later, s.agenda = .hart choose :: later) →
    interruptTaken s choose = none → s.pc &&& s.cfg.lowPcBits = 0#64 →
    readBytes4? s.mem s.pc = some bs → decodeBytes bs = .ok (i, rest) →
      step s = exec i { s with agenda := s.agenda.tail }

/-- An interrupt that is selected goes before the instruction at `pc`: on the hart's turn, with an eager hart or a
scheduler that takes it, the step takes the interrupt at the level it was selected for, whatever `pc` and memory hold
(00_scope.md R14 step 2, 60_exceptions.md sections 4 and 9, the spec's decisions D9 and D29).
The agenda of turns is the model's (notes/assumptions/15.md). -/
def Obligations.SelectedInterruptGoesBeforeTheInstruction : Prop :=
  ∀ (s : State) (choose : Bool) (i : IntCause),
    (s.agenda = [] ∧ choose = true ∨ ∃ later, s.agenda = .hart choose :: later) →
    (s.cfg.eager = true ∨ choose = true) →
      (select s = some (i, .machine) → tvecUsable s.mtvec →
        step s = .next { interruptIntoM s i with agenda := s.agenda.tail }) ∧
      (select s = some (i, .supervisor) → tvecUsable s.stvec →
        step s = .next { interruptIntoS s i with agenda := s.agenda.tail })

/-- A fetch of which a byte lies outside memory is refused, and so is a word that decodes to nothing
(20_memory.md section 5, 93_implementation_defined.md Part 1b, the spec's decision D27).
The agenda of turns is the model's (notes/assumptions/15.md). -/
def Obligations.FetchWithoutAnInstructionIsRefused : Prop :=
  ∀ s : State, s.agenda = [] → select s = none → s.pc &&& s.cfg.lowPcBits = 0#64 →
    ((∃ k < 4, readByte? s.mem (s.pc + BitVec.ofNat 64 k).toNat = none) →
        step s = .refused .fetchOutsideMemory) ∧
      ∀ bs e, readBytes4? s.mem s.pc = some bs → decodeBytes bs = .error e →
        step s = .refused (refusalOfDecode e)

/-- The fetched word is little-endian: the byte at `pc + k` holds bits `[8k+7:8k]` (20_memory.md section 2, the
spec's decision D21): where memory holds an instruction's four bytes from `pc` on, the step runs it.
The agenda of turns is the model's (notes/assumptions/15.md). -/
def Obligations.FetchIsLittleEndian : Prop :=
  ∀ (s : State) (i : Instr), s.agenda = [] → select s = none → s.pc &&& s.cfg.lowPcBits = 0#64 →
    (∀ k < 4, readByte? s.mem (s.pc + BitVec.ofNat 64 k).toNat = some ((encode i).extractLsb' (8 * k) 8)) →
      step s = exec i s

/-- A misaligned `pc` raises code 0 before any fetch (20_memory.md section 2, the spec's decision D22).
The agenda of turns is the model's (notes/assumptions/15.md). -/
def Obligations.MisalignedPcRaisesCodeZero : Prop :=
  ∀ s : State, s.agenda = [] → select s = none → s.pc &&& s.cfg.lowPcBits ≠ 0#64 →
    takesException (step s) s 0

/-- The agents outside the hart set their own wires and touch nothing else: the CLINT `msip_line` and
`mtip_line`, the PLIC `meip_line` and `seip_line` (00_scope.md section 6, the spec's decision D23).
The agenda of turns is the model's (notes/assumptions/15.md). -/
def Obligations.AgentsSetOnlyTheirWires : Prop :=
  ∀ (s : State) (a b : Bool) (later : List Turn),
    (s.agenda = .clint a b :: later →
        step s = .next { s with agenda := later, lines := { s.lines with msip := a, mtip := b } }) ∧
      (s.agenda = .plic a b :: later →
        step s = .next { s with agenda := later, lines := { s.lines with meip := a, seip := b } })

/-! ### Taking a trap and returning -/

/-- R174, taking interrupt cause `i` into machine mode: "The value of mstatus.MIE is copied into mstatus.MPIE,
and then mstatus.MIE is cleared", the pc into *mepc*, the mode into MPP, the cause into *mcause*, and nothing
else changes; the target by R175 and R176. -/
def Obligations.MachineInterruptEntry : Prop :=
  ∀ (s : State) (i : IntCause), tvecUsable s.mtvec →
    enterTrap .machine (.interrupt i) s = .next (interruptIntoM s i)

/-- R196, trap entry into supervisor mode, for a delegated interrupt and for a delegated exception: "mepc,
mcause, MIE, MPIE, MPP are unchanged", and so is all the rest. -/
def Obligations.SupervisorTrapEntry : Prop :=
  ∀ s : State, tvecUsable s.stvec →
    (∀ i : IntCause, enterTrap .supervisor (.interrupt i) s = .next (interruptIntoS s i)) ∧
    ∀ e : ExcCause, enterTrap .supervisor (.exception e) s =
      .next (exceptionIntoS s (BitVec.ofNat 64 (excCode e)))

/-- R192: "A synchronous exception with code c raised while priv is S or U is taken into S (rule R196) if
medeleg[c] = 1, and into M (rule R179) otherwise. One raised while priv = M is always taken into M." -/
def Obligations.ExceptionGoesWhereMedelegSays : Prop :=
  ∀ (s : State) (e : ExcCause), takesException (raise e s) s (excCode e)

/-- R175 and R176 as addresses: a target exists exactly through a usable vector, is a multiple of 4, and in
Vectored mode is the base OR-ed with the offset, for the sum never leaves the 128-byte block (20_memory.md
section 2, an inference the spec marks as its own). -/
def Obligations.TrapTargetsAreSlotsOfTheBlock : Prop :=
  ∀ (v : Word) (c : Cause),
    ((∃ a, trapTarget v c = .ok a) ↔ tvecUsable v) ∧
      ∀ a, trapTarget v c = .ok a → a &&& 0x3#64 = 0#64 ∧
        (v.getLsbD 0 = true → a = (v &&& ~~~0x7F#64) ||| vectorOffset c)

/-- Any trap through a Vectored base that is not a multiple of 128 is refused, interrupts and exceptions alike
(60_exceptions.md section 5, the spec's decision D17). -/
def Obligations.MisalignedVectoredBaseIsRefused : Prop :=
  ∀ (s : State) (lvl : Level) (c : Cause) (v : Word),
    v = (match lvl with | .machine => s.mtvec | .supervisor => s.stvec) →
    v.extractLsb' 0 2 = 1#2 → v &&& 0x7C#64 ≠ 0#64 →
      enterTrap lvl c s = .refused .vectoredTrapMisalignedBase

/-- MRET in machine mode completes with the assignments of R120 and no other change, and below machine mode it
raises code 2 (40_trap_return.md; MPIE and MPP after it are the spec's decision D14, the check D15). -/
def Obligations.MretRestoresTheSavedMode : Prop :=
  ∀ s : State,
    (s.priv = .M → exec .mret s = .next { s with
      priv := s.mstatus.mpp
      pc := s.mepc
      mstatus := { s.mstatus with
        mie := s.mstatus.mpie, mpie := true, mpp := if s.cfg.hasU then .U else .M } }) ∧
    (s.priv ≠ .M → takesIllegalInstruction (exec .mret s) s)

/-- SRET, where it is legal, completes with the assignments of R121 and no other change; without supervisor mode
and in user mode it raises code 2. The premise TSR = 0 is a hypothesis, as in the rule; that a set TSR raises
code 2 in supervisor mode is the model's reading of the rule's comment (notes/assumptions/14.md). -/
def Obligations.SretRestoresTheSavedMode : Prop :=
  ∀ s : State,
    (s.cfg.hasS = true → (s.priv = .M ∨ s.priv = .S ∧ s.mstatus.hi.getLsbD 9 = false) →
      exec .sret s = .next { s with
        priv := if s.mstatus.spp then .S else .U
        pc := s.sepc
        mstatus := { s.mstatus with sie := s.mstatus.spie, spie := true, spp := false } }) ∧
    (s.cfg.hasS = false ∨ s.priv = .U ∨ s.priv = .S ∧ s.mstatus.hi.getLsbD 9 = true →
      takesIllegalInstruction (exec .sret s) s)

/-- Returning with MRET to an unchanged *mepc* resumes where the trap stopped: after any trap into machine mode,
MRET completes and the pc, the mode and the interrupt enable are those before the trap; what differs is MPIE,
MPP, *mepc* and *mcause* (60_exceptions.md sections 5 and 7, the spec's decisions D10 and D14). -/
def Obligations.MretUndoesAMachineTrap : Prop :=
  ∀ (s t : State) (c : Cause), enterTrap .machine c s = .next t →
    exec .mret t = .next { s with
      mstatus := { s.mstatus with mpie := true, mpp := if s.cfg.hasU then .U else .M }
      mepc := s.pc
      mcause := causeWord c }

/-- R197: "SRET (`40_trap_return.md` rule R121) undoes rule R196": after a trap into supervisor mode from below
machine mode, with TSR = 0, SRET completes and the pc, the mode and SIE are those before the trap. And nesting: a
machine-level interrupt is takeable in supervisor mode whatever SIE is, and its trap "saves `priv = S` in MPP and the
supervisor handler's `pc` in *mepc* and does not disturb *sepc*, *scause*, SPP, SPIE". -/
def Obligations.SretUndoesASupervisorTrap : Prop :=
  (∀ (s t : State) (c : Cause), s.priv ≠ .M → s.cfg.hasS = true → s.mstatus.hi.getLsbD 9 = false →
    enterTrap .supervisor c s = .next t →
      exec .sret t = .next { s with
        mstatus := { s.mstatus with spie := true, spp := false }
        sepc := s.pc
        scause := causeWord c }) ∧
  ∀ (s : State) (i : IntCause), s.priv = .S →
    (pend s i = true → mLevel s i = true → takeable s i = true ∧ ∃ j, select s = some (j, .machine)) ∧
    ∀ t, enterTrap .machine (.interrupt i) s = .next t → t.mstatus.mpp = .S ∧ t.mepc = s.pc ∧
      t.sepc = s.sepc ∧ t.scause = s.scause ∧ t.mstatus.spp = s.mstatus.spp ∧ t.mstatus.spie = s.mstatus.spie

/-- R150, ECALL: code 8 in U, 9 in S, 11 in M, which is "8 plus the mode's encoding", and "ECALL does nothing
else": only what trap entry writes, *mepc* or *sepc* being the address of the ECALL itself. -/
def Obligations.EcallTakesTheCallOfItsMode : Prop :=
  encode .ecall = 0x00000073#32 ∧ ∀ s : State, takesException (exec .ecall s) s (8 + s.priv.code.toNat) ∧
    (s.priv = .U → takesException (exec .ecall s) s 8) ∧
    (s.priv = .S → takesException (exec .ecall s) s 9) ∧
    (s.priv = .M → tvecUsable s.mtvec → exec .ecall s = .next (exceptionIntoM s 11#64))

/-- R151, EBREAK: code 3, "in every privilege mode", and nothing else. -/
def Obligations.EbreakTakesTheBreakpoint : Prop :=
  encode .ebreak = 0x00100073#32 ∧ ∀ s : State, takesException (exec .ebreak s) s 3

/-! ### The CSR instructions -/

/-- R134, CSRRW: `x[rd] <- CsrRead(csr)`, `CsrWrite(csr, x[rs1])`, `pc <- pc + 4`, the value written taken before
`rd` is; and the exception of the access check.
The exception of a refused access is R133's, which rests on the spec's decision D15. -/
def Obligations.CsrrwSwapsRegisterAndCsr : Prop :=
  ∀ (s : State) (rd rs1 : RegIdx) (c : Csr),
    encode (.csrrw rd (csrNumber c) rs1) = csrWord (csrNumber c) (.ofFin rs1) 0b001#3 rd ∧
    (accessAllowed s c → writeMeaningful s c (s.readX rs1) →
      ∃ w t, csrWrite s (s.readX rs1) c = .next w ∧ exec (.csrrw rd (csrNumber c) rs1) s = .next t ∧
        retiredAs s w t rd (csrRead s c)) ∧
    (¬ accessAllowed s c → takesIllegalInstruction (exec (.csrrw rd (csrNumber c) rs1) s) s)

/-- R135, CSRRS: `x[rd] <- CsrRead(csr)`, and, if `rs1` is not `x0`, `CsrWrite(csr, CsrOld(csr) | x[rs1])`; with
`rs1 = x0` "nothing is written".
`CsrOld` is R132's, written out in `Claims.oldValue`.
The exception of a refused access is R133's, which rests on the spec's decision D15. -/
def Obligations.CsrrsReadsAndSetsBits : Prop :=
  ∀ (s : State) (rd rs1 : RegIdx) (c : Csr),
    encode (.csrrs rd (csrNumber c) rs1) = csrWord (csrNumber c) (.ofFin rs1) 0b010#3 rd ∧
    (accessAllowed s c → (rs1 ≠ 0 → writeMeaningful s c (oldValue s c ||| s.readX rs1)) →
      ∃ w t, (if rs1 = 0 then w = s else csrWrite s (oldValue s c ||| s.readX rs1) c = .next w) ∧
        exec (.csrrs rd (csrNumber c) rs1) s = .next t ∧ retiredAs s w t rd (csrRead s c)) ∧
    (¬ accessAllowed s c → takesIllegalInstruction (exec (.csrrs rd (csrNumber c) rs1) s) s)

/-- R136, CSRRC: `x[rd] <- CsrRead(csr)`, and, if `rs1` is not `x0`, `CsrWrite(csr, CsrOld(csr) & ~x[rs1])`.
`CsrOld` is R132's, written out in `Claims.oldValue`.
The exception of a refused access is R133's, which rests on the spec's decision D15. -/
def Obligations.CsrrcReadsAndClearsBits : Prop :=
  ∀ (s : State) (rd rs1 : RegIdx) (c : Csr),
    encode (.csrrc rd (csrNumber c) rs1) = csrWord (csrNumber c) (.ofFin rs1) 0b011#3 rd ∧
    (accessAllowed s c → (rs1 ≠ 0 → writeMeaningful s c (oldValue s c &&& ~~~(s.readX rs1))) →
      ∃ w t, (if rs1 = 0 then w = s else csrWrite s (oldValue s c &&& ~~~(s.readX rs1)) c = .next w) ∧
        exec (.csrrc rd (csrNumber c) rs1) s = .next t ∧ retiredAs s w t rd (csrRead s c)) ∧
    (¬ accessAllowed s c → takesIllegalInstruction (exec (.csrrc rd (csrNumber c) rs1) s) s)

/-- R137, CSRRWI: `CsrWrite(csr, uimm)`, "uimm zero-extended: bits [63:5] of the written value are 0", always
writing.
The exception of a refused access is R133's, which rests on the spec's decision D15. -/
def Obligations.CsrrwiWritesTheImmediate : Prop :=
  ∀ (s : State) (rd : RegIdx) (u : BitVec 5) (c : Csr),
    encode (.csrrwi rd (csrNumber c) u) = csrWord (csrNumber c) u 0b101#3 rd ∧
    (accessAllowed s c → writeMeaningful s c (BitVec.ofNat 64 u.toNat) →
      ∃ w t, csrWrite s (BitVec.ofNat 64 u.toNat) c = .next w ∧
        exec (.csrrwi rd (csrNumber c) u) s = .next t ∧ retiredAs s w t rd (csrRead s c)) ∧
    (¬ accessAllowed s c → takesIllegalInstruction (exec (.csrrwi rd (csrNumber c) u) s) s)

/-- R138, CSRRSI: `x[rd] <- CsrRead(csr)`, and, if `uimm` is not 0, `CsrWrite(csr, CsrOld(csr) | uimm)`; "uimm = 0
is a pure read".
`CsrOld` is R132's, written out in `Claims.oldValue`.
The exception of a refused access is R133's, which rests on the spec's decision D15. -/
def Obligations.CsrrsiReadsAndSetsImmediateBits : Prop :=
  ∀ (s : State) (rd : RegIdx) (u : BitVec 5) (c : Csr),
    encode (.csrrsi rd (csrNumber c) u) = csrWord (csrNumber c) u 0b110#3 rd ∧
    (accessAllowed s c → (u ≠ 0#5 → writeMeaningful s c (oldValue s c ||| BitVec.ofNat 64 u.toNat)) →
      ∃ w t, (if u = 0#5 then w = s else csrWrite s (oldValue s c ||| BitVec.ofNat 64 u.toNat) c = .next w) ∧
        exec (.csrrsi rd (csrNumber c) u) s = .next t ∧ retiredAs s w t rd (csrRead s c)) ∧
    (¬ accessAllowed s c → takesIllegalInstruction (exec (.csrrsi rd (csrNumber c) u) s) s)

/-- R139, CSRRCI: `x[rd] <- CsrRead(csr)`, and, if `uimm` is not 0, `CsrWrite(csr, CsrOld(csr) & ~uimm)`.
`CsrOld` is R132's, written out in `Claims.oldValue`.
The exception of a refused access is R133's, which rests on the spec's decision D15. -/
def Obligations.CsrrciReadsAndClearsImmediateBits : Prop :=
  ∀ (s : State) (rd : RegIdx) (u : BitVec 5) (c : Csr),
    encode (.csrrci rd (csrNumber c) u) = csrWord (csrNumber c) u 0b111#3 rd ∧
    (accessAllowed s c → (u ≠ 0#5 → writeMeaningful s c (oldValue s c &&& ~~~(BitVec.ofNat 64 u.toNat))) →
      ∃ w t, (if u = 0#5 then w = s else csrWrite s (oldValue s c &&& ~~~(BitVec.ofNat 64 u.toNat)) c = .next w) ∧
        exec (.csrrci rd (csrNumber c) u) s = .next t ∧ retiredAs s w t rd (csrRead s c)) ∧
    (¬ accessAllowed s c → takesIllegalInstruction (exec (.csrrci rd (csrNumber c) u) s) s)

/-- A CSR instruction that names a number outside R23 is refused in every mode, and an ill-formed instruction is
exactly such a one (10_state.md section 9, the spec's decision D27). -/
def Obligations.CsrNumberOutsideTheSpecIsRefused : Prop :=
  ∀ (i : Instr) (s : State),
    (i.wellFormed = false ↔ ∃ n, i.csrField? = some n ∧ ∀ c, csrNumber c ≠ n) ∧
      (i.wellFormed = false → exec i s = .refused .csrOutsideSpec)

/-! ### What each CSR stores and shows -/

/-- A read of *mstatus* shows its fields, and a write stores them: the fields of R24 store (SIE, SPIE and SPP only
under `HAS_S`), reserved bits read 0, MPP stores an implemented mode and otherwise keeps its value, `mstatus_hi`
stores under its mask, and nothing else changes (41_csr_access.md section 1, decisions D18, D19 and D34). -/
def Obligations.MstatusStoresItsFields : Prop :=
  (∀ s : State, (csrRead s .mstatus).getLsbD 1 = (s.cfg.hasS && s.mstatus.sie) ∧
    (csrRead s .mstatus).getLsbD 3 = s.mstatus.mie ∧
    (csrRead s .mstatus).getLsbD 5 = (s.cfg.hasS && s.mstatus.spie) ∧
    (csrRead s .mstatus).getLsbD 7 = s.mstatus.mpie ∧
    (csrRead s .mstatus).getLsbD 8 = (s.cfg.hasS && s.mstatus.spp) ∧
    (csrRead s .mstatus).extractLsb' 11 2 = s.mstatus.mpp.code ∧
    (csrRead s .mstatus).extractLsb' 13 51 = s.mstatus.hi) ∧
  ∀ (s : State) (v : Word), ∃ w, csrWrite s v .mstatus = .next w ∧ w = { s with mstatus := w.mstatus } ∧
    (∀ k ∈ [3, 7], (csrRead w .mstatus).getLsbD k = v.getLsbD k) ∧
    (∀ k ∈ [1, 5, 8], (csrRead w .mstatus).getLsbD k = (s.cfg.hasS && v.getLsbD k)) ∧
    (∀ k ∈ [0, 2, 4, 6, 9, 10], (csrRead w .mstatus).getLsbD k = false) ∧
    (csrRead w .mstatus).extractLsb' 11 2 = w.mstatus.mpp.code ∧
    (∀ p, s.cfg.implements p = true → v.extractLsb' 11 2 = p.code → w.mstatus.mpp = p) ∧
    ((∀ p, s.cfg.implements p = true → v.extractLsb' 11 2 ≠ p.code) → s.cfg.legalizeMppSupplied = false →
      w.mstatus.mpp = s.mstatus.mpp) ∧
    (csrRead w .mstatus).extractLsb' 13 51 = v.extractLsb' 13 51 &&& s.cfg.mstatusHiMask

/-- A write of *mie* stores the six enables, the three supervisor ones only under `HAS_S`, and nothing else; a read
gives back the enables the state holds (41_csr_access.md section 1, decision D18). -/
def Obligations.MieStoresTheSixEnables : Prop :=
  ∀ (s : State) (v : Word), csrRead s .mie = s.mie &&& (if s.cfg.hasS then 0xAAA#64 else 0x888#64) ∧
    ∃ w, csrWrite s v .mie = .next w ∧ w = { s with mie := w.mie } ∧
    csrRead w .mie = v &&& (if s.cfg.hasS then 0xAAA#64 else 0x888#64)

/-- *mip*: MSIP, MTIP and MEIP read as `msip_line`, `mtip_line` and `meip_line`, with supervisor mode and without;
SSIP, STIP and SEIP read as stored, SEIP with `seip_line` OR-ed in, and 0 without supervisor mode. A write stores
SSIP, STIP and `seip_sw` and ignores the rest; without supervisor mode it writes nothing (R37, R131, R132;
41_csr_access.md section 1, 10_state.md sections 5 and 11). -/
def Obligations.MipStoresOnlyItsSoftwareBits : Prop :=
  (∀ s : State, csrRead s .mip = wireBits s ||| (if s.cfg.hasS then
      (if s.ssip then 0x2#64 else 0#64) ||| (if s.stip then 0x20#64 else 0#64) |||
        (if s.seipSw || s.lines.seip then 0x200#64 else 0#64) else 0#64)) ∧
  ∀ (s : State) (v : Word), ∃ w, csrWrite s v .mip = .next w ∧
    w = { s with ssip := w.ssip, stip := w.stip, seipSw := w.seipSw } ∧
    (s.cfg.hasS = false → w = s ∧ csrRead w .mip = wireBits s) ∧
    (s.cfg.hasS = true → w.ssip = v.getLsbD 1 ∧ w.stip = v.getLsbD 5 ∧ w.seipSw = v.getLsbD 9 ∧
      csrRead w .mip = (v &&& 0x222#64) ||| wireBits s ||| (if s.lines.seip then 0x200#64 else 0#64))

/-- Setting or clearing bits of *mip* other than bit 9 never latches `seip_line` into `seip_sw`, while `rd` sees
their OR (10_state.md section 11, 41_csr_access.md section 3, decision D24). -/
def Obligations.SetAndClearOnMipNeverLatchTheWire : Prop :=
  ∀ (s : State) (m : Word), m.getLsbD 9 = false → s.cfg.hasS = true →
    (csrRead s .mip).getLsbD 9 = (s.seipSw || s.lines.seip) ∧
    (∃ w, csrWrite s (oldValue s .mip ||| m) .mip = .next w ∧ w.seipSw = s.seipSw ∧
      csrRead w .mip = csrRead s .mip ||| (m &&& 0x22#64)) ∧
    (∃ w, csrWrite s (oldValue s .mip &&& ~~~m) .mip = .next w ∧ w.seipSw = s.seipSw ∧
      csrRead w .mip = csrRead s .mip &&& ~~~(m &&& 0x22#64))

/-- A write of a legal pair to *mcause* or *scause* is stored exactly, the legal pairs being the causes of the two
tables; any other write completes too, stores the Interrupt bit as written, and of the code it leaves nothing is said
(10_state.md section 6, the spec's decision D30; notes/assumptions/11.md). -/
def Obligations.CauseStoresTheLegalPairs : Prop :=
  (∀ s : State, csrRead s .mcause = s.mcause ∧ csrRead s .scause = s.scause) ∧
  ∀ (s : State) (v : Word),
    (∃ w, csrWrite s v .mcause = .next w ∧ w = { s with mcause := w.mcause } ∧
      ((∃ c, v = causeWord c) → w.mcause = v) ∧ w.mcause.getLsbD 63 = v.getLsbD 63) ∧
    (∃ w, csrWrite s v .scause = .next w ∧ w = { s with scause := w.scause } ∧
      ((∃ c, v = causeWord c) → w.scause = v) ∧ w.scause.getLsbD 63 = v.getLsbD 63) ∧
    (causeLegal v = true ↔ ∃ c, v = causeWord c)

/-- A write of *mtvec* or *stvec* with MODE 0 or 1 stores MODE and the writable BASE bits; with MODE 2 or 3 it is
refused without `legalize_mtvec`, and so is each CSR instruction that makes it, and with it leaves some value with
MODE 0 or 1 (10_state.md sections 7 and 10, the spec's decision D16; notes/assumptions/9.md). -/
def Obligations.TrapVectorStoresALegalMode : Prop :=
  (∀ s : State, csrRead s .mtvec = s.mtvec ∧ csrRead s .stvec = s.stvec) ∧
  ∀ (s : State) (v : Word) (c : Csr), c = .mtvec ∨ c = .stvec →
    (v.extractLsb' 0 2 < 2#2 → ∃ w, csrWrite s v c = .next w ∧
      w = { s with mtvec := w.mtvec, stvec := w.stvec } ∧ (c = .mtvec → w.stvec = s.stvec) ∧
      (c = .stvec → w.mtvec = s.mtvec) ∧ (csrRead w c).extractLsb' 0 2 = v.extractLsb' 0 2 ∧
      (csrRead w c).extractLsb' 2 62 = v.extractLsb' 2 62 &&& s.cfg.mtvecBaseMask) ∧
    (¬ v.extractLsb' 0 2 < 2#2 → s.cfg.legalizeMtvecSupplied = false →
      csrWrite s v c = .refused .tvecWriteReservedMode ∧
        ∀ i : Instr, i.csrField? = some (csrNumber c) → accessAllowed s c → valueWritten? i s c = some v →
          exec i s = .refused .tvecWriteReservedMode) ∧
    (¬ v.extractLsb' 0 2 < 2#2 → s.cfg.legalizeMtvecSupplied = true → ∃ w, csrWrite s v c = .next w ∧
      w = { s with mtvec := w.mtvec, stvec := w.stvec } ∧ (c = .mtvec → w.stvec = s.stvec) ∧
      (c = .stvec → w.mtvec = s.mtvec) ∧ (csrRead w c).extractLsb' 0 2 < 2#2)

/-- A write of *mepc* or *sepc* drops the bits below IALIGN and stores the rest; a write of *mideleg* or *medeleg*
stores the bits of its mask (10_state.md sections 8 and 10, decisions D11 and D28). -/
def Obligations.EpcAndDelegationStoreUnderTheirMasks : Prop :=
  (∀ s : State, csrRead s .mepc = s.mepc ∧ csrRead s .sepc = s.sepc ∧
    (s.cfg.hasS = true → csrRead s .mideleg = s.mideleg ∧ csrRead s .medeleg = s.medeleg)) ∧
  ∀ (s : State) (v : Word),
    let aligned := match s.cfg.ialign with | .bits16 => v &&& ~~~0x1#64 | .bits32 => v &&& ~~~0x3#64
    (∃ w, csrWrite s v .mepc = .next w ∧ w = { s with mepc := aligned } ∧ csrRead w .mepc = aligned) ∧
    (∃ w, csrWrite s v .sepc = .next w ∧ w = { s with sepc := aligned } ∧ csrRead w .sepc = aligned) ∧
    (s.cfg.hasS = true →
      (∃ w, csrWrite s v .mideleg = .next w ∧ w = { s with mideleg := v &&& s.cfg.midelegMask } ∧
        csrRead w .mideleg = v &&& s.cfg.midelegMask) ∧
      (∃ w, csrWrite s v .medeleg = .next w ∧ w = { s with medeleg := v &&& s.cfg.medelegMask } ∧
        csrRead w .medeleg = v &&& s.cfg.medelegMask))

/-- *sstatus*: within scope it shows SIE, SPIE and SPP of *mstatus*, and a write replaces those three and leaves
MIE, MPIE, MPP and `mstatus_hi`; of bits [63:13] of a read nothing is said (10_state.md section 10;
notes/assumptions/12.md). -/
def Obligations.SstatusIsAViewOfMstatus : Prop :=
  ∀ (s : State) (v : Word), s.cfg.hasS = true →
    csrRead s .sstatus &&& 0x1FFF#64 = csrRead s .mstatus &&& 0x122#64 ∧
    ∃ w, csrWrite s v .sstatus = .next w ∧ w = { s with mstatus := w.mstatus } ∧
      csrRead w .mstatus = (csrRead s .mstatus &&& ~~~0x122#64) ||| (v &&& 0x122#64)

/-- R54, *sie*: `CsrRead(0x104) = mie & mideleg & 0x222`; a write sets `mie <- (mie & ~m) | (v & m)` with
`m = mideleg & 0x222`; "A cause that is not delegated reads 0 and cannot be written here." -/
def Obligations.SieIsAViewOfMie : Prop :=
  ∀ (s : State) (v : Word), s.cfg.hasS = true →
    csrRead s .sie = csrRead s .mie &&& csrRead s .mideleg &&& 0x222#64 ∧
    (∃ w, csrWrite s v .sie = .next w ∧ w = { s with mie := w.mie } ∧
      (∀ k, (s.mideleg &&& 0x222#64).getLsbD k = true → w.mie.getLsbD k = v.getLsbD k) ∧
      (∀ k, (s.mideleg &&& 0x222#64).getLsbD k = false → w.mie.getLsbD k = s.mie.getLsbD k)) ∧
    ∀ k, s.mideleg.getLsbD k = false → (csrRead s .sie).getLsbD k = false

/-- R55, *sip*: `CsrRead(0x144) = mip & mideleg & 0x222`; a write "can change SSIP only", and only where
`mideleg[1] = 1`; "STIP and SEIP are read-only through sip". -/
def Obligations.SipIsAViewOfMip : Prop :=
  ∀ (s : State) (v : Word), s.cfg.hasS = true →
    csrRead s .sip = csrRead s .mip &&& csrRead s .mideleg &&& 0x222#64 ∧
    csrWrite s v .sip =
      .next { s with ssip := if s.mideleg.getLsbD 1 then v.getLsbD 1 else s.ssip }

/-! ### The take condition and the selection -/

/-- R171 and R173: what is selected at machine level is the takeable machine-level cause of highest priority in the
source's list 11, 3, 7, 9, 1, 5, and a delegated cause is selected exactly where no machine-level cause is
takeable, again the highest (60_exceptions.md section 4, decision D29). -/
def Obligations.SelectionIsTheHighestPriority : Prop :=
  ∀ (s : State) (i : IntCause),
    (select s = some (i, .machine) ↔ takeable s i = true ∧ mLevel s i = true ∧
      ∀ j, takeable s j = true → mLevel s j = true → priorityRank i ≤ priorityRank j) ∧
    (select s = some (i, .supervisor) ↔ takeable s i = true ∧ mLevel s i = false ∧
      (∀ j, takeable s j = true → mLevel s j = false) ∧
      ∀ j, takeable s j = true → priorityRank i ≤ priorityRank j)

/-- The take condition in terms of what a CSR read shows: cause `i` is takeable exactly when its bits of *mip* and
*mie* are 1 and its level is globally enabled; below machine mode machine-level interrupts are enabled whatever
MIE holds (60_exceptions.md section 3, the spec's decision D8). -/
def Obligations.TakeableByTheBitsSoftwareReads : Prop :=
  ∀ (s : State) (i : IntCause),
    takeable s i = true ↔
      (csrRead s .mip).getLsbD (intCode i) = true ∧ (csrRead s .mie).getLsbD (intCode i) = true ∧
        (if (csrRead s .mideleg).getLsbD (intCode i) then s.priv = .U ∨ s.priv = .S ∧ s.mstatus.sie = true
          else s.priv ≠ .M ∨ s.mstatus.mie = true)

/-- The two loops of R173 and a single pass over the source's list select the same when *mideleg* is 0 and when all
three supervisor causes and no other are delegated (60_exceptions.md section 4, the spec's own inference). -/
def Obligations.TwoLoopsAgreeWithASinglePass : Prop :=
  ∀ s : State, csrRead s .mideleg = 0#64 ∨ csrRead s .mideleg = 0x222#64 → select s = singlePass s

/-- The vector S13: under partial delegation the two differ, and the two loops govern, for every state with those
enables (60_exceptions.md section 4, the spec's own inference). -/
def Obligations.PartialDelegationTakesTheMachineLevelCause : Prop :=
  ∀ s : State, s.priv = .S → s.mstatus.sie = true → csrRead s .mideleg = 0x002#64 →
    csrRead s .mie = 0x022#64 → csrRead s .mip = 0x022#64 →
      select s = some (.supervisorTimer, .machine) ∧ singlePass s = some (.supervisorSoftware, .supervisor)

/-- In machine mode a machine-level interrupt is enabled by MIE and its bit in *mie*, and none is taken while MIE is
0, whatever *mie* and *mip* hold; *mip* does not depend on MIE (60_exceptions.md section 2). That the selection in a
lower mode does not depend on it either is the spec's decision D8 (60_exceptions.md section 3;
notes/assumptions/32.md). -/
def Obligations.MieMasksMachineModeOnly : Prop :=
  ∀ s : State,
    (s.priv = .M → s.mstatus.mie = true → ∀ i, mLevel s i = true →
      takeable s i = ((csrRead s .mip).getLsbD (intCode i) && (csrRead s .mie).getLsbD (intCode i))) ∧
    (s.priv = .M → s.mstatus.mie = false → select s = none ∧ ∀ b, interruptTaken s b = none) ∧
    (∀ b, csrRead { s with mstatus := { s.mstatus with mie := b } } .mip = csrRead s .mip) ∧
    (s.priv ≠ .M → ∀ b, select { s with mstatus := { s.mstatus with mie := b } } = select s)

/-- A delegated cause is never taken into machine mode and never while the mode is M, whatever MIE is, and one that
is not delegated is never taken into supervisor mode (60_exceptions.md section 9). -/
def Obligations.DelegatedInterruptsNeverReachMachineMode : Prop :=
  ∀ (s : State) (i : IntCause),
    ((csrRead s .mideleg).getLsbD (intCode i) = true → select s ≠ some (i, .machine) ∧
      (s.priv = .M → ∀ lvl, select s ≠ some (i, lvl))) ∧
    ((csrRead s .mideleg).getLsbD (intCode i) = false → select s ≠ some (i, .supervisor))

/-- R199: without supervisor mode the Annex CSRs "do not exist (illegal instruction on access)", the S fields "read 0
and ignore writes", causes 1, 5, 9 never occur, SRET is illegal, and `select()` reduces to 11, 3, 7 with the
condition pending, enabled and `m_on`. -/
def Obligations.WithoutSupervisorModeTheAnnexIsGone : Prop :=
  ∀ s : State, s.cfg.hasS = false →
    (∀ i c, i.csrField? = some (csrNumber c) → csrIsAnnex c = true → takesIllegalInstruction (exec i s) s) ∧
    csrRead s .mstatus &&& 0x122#64 = 0#64 ∧ csrRead s .mie &&& 0x222#64 = 0#64 ∧
    csrRead s .mip &&& 0x222#64 = 0#64 ∧
    (∀ v c w, csrIsAnnex c = false → csrWrite s v c = .next w →
      csrRead w .mstatus &&& 0x122#64 = 0#64 ∧ csrRead w .mie &&& 0x222#64 = 0#64 ∧
        csrRead w .mip &&& 0x222#64 = 0#64) ∧
    takesIllegalInstruction (exec .sret s) s ∧
    (∀ i, takeable s i = (pend s i && machineOn s)) ∧
    select s = (([.machineExternal, .machineSoftware, .machineTimer] : List IntCause).find?
      (fun i => pend s i && machineOn s)).map (fun i => (i, .machine))

/-- A CSR write takes effect at the next boundary (41_csr_access.md section 3, the spec's decision D31). In machine
mode every CSR instruction on *mstatus* completes with MIE as it writes it, or as it was where it writes nothing, and
the next instruction's address in `pc`; and after any CSR instruction, on any CSR, a boundary with MIE = 1 selects a
cause if a machine-level one is pending and enabled there, and a boundary with MIE = 0 selects none. -/
def Obligations.MieWriteTakesEffectAtTheNextBoundary : Prop :=
  ∀ (i : Instr) (s : State), s.priv = .M →
    (i.csrField? = some (csrNumber .mstatus) → ∃ t, exec i s = .next t ∧ t.pc = s.pc + 4#64 ∧ t.priv = .M ∧
      (∀ v, valueWritten? i s .mstatus = some v → t.mstatus.mie = v.getLsbD 3) ∧
      (valueWritten? i s .mstatus = none → t.mstatus.mie = s.mstatus.mie) ∧
      ∀ j, pend t j = pend s j ∧ mLevel t j = mLevel s j) ∧
    (∀ n t, i.csrField? = some n → exec i s = .next t →
      (t.mstatus.mie = true → ∀ j, pend t j = true → mLevel t j = true → ∃ k, select t = some (k, .machine)) ∧
      (t.mstatus.mie = false → select t = none))

/-! ### Reset -/

/-- Reset leaves what R61 gives, for every choice of what it leaves open: machine mode, the reset vector, MIE, SIE,
*mideleg* and *medeleg* 0, reserved bits 0, MPRV 0; parameters, wires and memory as they were (10_state.md section
12 and 70_reset_and_hazards.md section 1, the spec's decision D20).
That parameters, wires and memory stay, and the agenda, are the model's (notes/assumptions/27.md and 15.md). -/
def Obligations.ResetLeavesWhatTheSpecGives : Prop :=
  ∀ (s : State) (u : ResetDraw) (later : List Turn), s.agenda = .reset u :: later →
    ∃ t, step s = .next t ∧ t.priv = .M ∧ t.pc = s.cfg.resetPc ∧ t.mstatus.mie = false ∧
      t.mstatus.sie = false ∧ t.mideleg = 0#64 ∧ t.medeleg = 0#64 ∧
      csrRead t .mstatus &&& 0x2065F#64 = 0#64 ∧ csrRead t .mie &&& ~~~0xAAA#64 = 0#64 ∧
      t.cfg = s.cfg ∧ t.lines = s.lines ∧ t.mem = s.mem ∧ t.agenda = later

/-- No interrupt directly after reset, whatever the wires and the unspecified registers hold
(70_reset_and_hazards.md section 1, an inference the spec marks as its own; vector Z2). -/
def Obligations.NoInterruptDirectlyAfterReset : Prop :=
  ∀ (cfg : Config) (lines : Lines) (mem : Memory) (agenda : List Turn) (d : Nat) (u : ResetDraw),
    select (State.afterReset cfg lines mem agenda d u) = none

/-- `State.reset` is a legal state. That its parameters, wires and memory are those the model chose is the model's
(notes/assumptions/1.md). -/
def Obligations.ResetIsALegalState : Prop := Legal State.reset

/-! ### Whole-machine rules -/

/-- Every step of the machine, by whichever agent, keeps a legal state legal: the pc stays aligned, the mode and MPP
stay modes the hart has, reserved bits stay 0, the trap vectors keep a legal MODE, *mepc* and *sepc* stay aligned,
the S fields stay 0 without supervisor mode, memory stays canonical. -/
def Obligations.EveryStepKeepsALegalState : Prop :=
  ∀ s t : State, Legal s → step s = .next t → Legal t

/-- In a legal state no trap meets a reserved MODE: "*mtvec* never holds it" (60_exceptions.md section 5, decision
D17). -/
def Obligations.NoTrapThroughAReservedMode : Prop :=
  ∀ s : State, Legal s → step s ≠ .refused .trapThroughReservedMode

/-- No step of any agent writes memory or changes a parameter, and the wires move only in a turn of the CLINT or of
the PLIC (20_memory.md sections 4 and 5, the spec's decision D26; 00_scope.md section 6, 10_state.md section 11, the
spec's decision D23). That wires, memory and parameters survive a reset turn is the model's reading
(notes/assumptions/27.md), that the parameters stand in the state and no step changes them is the model's choice
(notes/assumptions/1.md), and so is the agenda of turns (notes/assumptions/15.md). -/
def Obligations.NoStepWritesMemoryAndOnlyAgentsMoveWires : Prop :=
  ∀ s t : State, step s = .next t →
    t.mem = s.mem ∧ t.cfg = s.cfg ∧
      (t.lines = s.lines ∨ ∃ a b later, s.agenda = .clint a b :: later ∨ s.agenda = .plic a b :: later)

/-- A general register changes only as the `rd` of a CSR instruction that the access check lets through: traps,
returns, and every other register are left out (10_state.md sections 1 and 13, decision D12). -/
def Obligations.OnlyTheDestinationRegisterChanges : Prop :=
  ∀ (i : Instr) (s t : State) (r : RegIdx), exec i s = .next t → t.readX r ≠ s.readX r →
    r = i.destination ∧ r ≠ 0 ∧ t.priv = s.priv ∧ t.pc = s.pc + 4#64 ∧
      ∃ c, i.csrField? = some (csrNumber c) ∧ accessAllowed s c ∧ t.readX r = csrRead s c

/-- The mode rises only by a trap, to M or by delegation to S, and falls only by MRET or SRET; no other instruction
changes it, and a trap never lowers it (60_exceptions.md section 8, an inference the spec marks as its own). -/
def Obligations.ModeChangesOnlyByTrapAndReturn : Prop :=
  ∀ (i : Instr) (s t : State), exec i s = .next t →
    (s.priv.code < t.priv.code → (t.priv = .M ∧ t.mepc = s.pc ∧ t.mstatus.mpp = s.priv) ∨
      (t.priv = .S ∧ t.sepc = s.pc ∧ t.mstatus.spp = false ∧ s.cfg.hasS = true)) ∧
    (t.priv.code < s.priv.code → (i = .mret ∧ s.priv = .M ∧ t.priv = s.mstatus.mpp ∧ t.pc = s.mepc) ∨
      (i = .sret ∧ t.pc = s.sepc ∧ t.priv = if s.mstatus.spp then .S else .U))

/-- User mode has no CSR and no return instruction: every instruction of this spec that completes there is a trap,
which changes no general register and goes up to M or S (60_exceptions.md section 8, the spec's decision D15). -/
def Obligations.UserModeCanOnlyTrap : Prop :=
  ∀ (i : Instr) (s t : State), s.priv = .U → exec i s = .next t →
    t.x = s.x ∧ ((t.priv = .M ∧ t.mepc = s.pc ∧ t.mstatus.mpp = .U ∧ t.mstatus.mie = false) ∨
      (t.priv = .S ∧ t.sepc = s.pc ∧ t.mstatus.spp = false ∧ t.mstatus.sie = false))

/-- R43: a trap into machine mode writes all of *mcause*, "Nothing else writes it but CsrWrite", and a delegated trap
"writes scause instead and leaves mcause unchanged". -/
def Obligations.OnlyTrapsAndCsrWritesSetMcause : Prop :=
  (∀ (s t : State) (c : Cause), enterTrap .machine c s = .next t → t.mcause = causeWord c) ∧
  (∀ (s t : State) (c : Cause), enterTrap .supervisor c s = .next t →
    t.scause = causeWord c ∧ t.mcause = s.mcause) ∧
  ∀ (i : Instr) (s t : State), exec i s = .next t → t.mcause ≠ s.mcause →
    (∃ e, t.mcause = causeWord (.exception e) ∧ t.priv = .M ∧ t.mepc = s.pc) ∨
      (i.csrField? = some 0x342#12 ∧ s.priv = .M)

/-- Software below machine mode cannot touch machine state: an instruction that starts below M and does not trap into
M leaves *mtvec*, *mepc*, *mcause*, *mideleg*, *medeleg*, STIP, `seip_sw`, the M fields and upper bits of *mstatus*,
every enable that is not delegated, and SSIP where cause 1 is not delegated (60_exceptions.md sections 8 and 9,
10_state.md section 10). -/
def Obligations.BelowMachineModeMachineStateIsSafe : Prop :=
  ∀ (i : Instr) (s t : State), s.priv ≠ .M → exec i s = .next t → t.priv ≠ .M →
    t.mtvec = s.mtvec ∧ t.mepc = s.mepc ∧ t.mcause = s.mcause ∧ t.mideleg = s.mideleg ∧
      t.medeleg = s.medeleg ∧ t.stip = s.stip ∧ t.seipSw = s.seipSw ∧ t.mstatus.mie = s.mstatus.mie ∧
      t.mstatus.mpie = s.mstatus.mpie ∧ t.mstatus.mpp = s.mstatus.mpp ∧ t.mstatus.hi = s.mstatus.hi ∧
      (s.mideleg.getLsbD 1 = false → t.ssip = s.ssip) ∧
      ∀ k, (s.mideleg &&& 0x222#64).getLsbD k = false → t.mie.getLsbD k = s.mie.getLsbD k

/-- Software below machine mode learns nothing of the machine's trap registers: an instruction that starts below M and
does not trap into M does the same, register for register, whatever *mcause*, *mepc* and *mtvec* hold. -/
def Obligations.BelowMachineModeTrapRegistersAreInvisible : Prop :=
  ∀ (i : Instr) (s t : State) (a b m : Word), s.priv ≠ .M → exec i s = .next t → t.priv ≠ .M →
    exec i { s with mcause := a, mepc := b, mtvec := m } = .next { t with mcause := a, mepc := b, mtvec := m }

/-- When an instruction is refused, and for which reason (93_implementation_defined.md Part 1b; 10_state.md sections 7
and 9, 60_exceptions.md section 5, the spec's decisions D16, D17 and D27): a CSR number outside the spec; a reserved
MODE being written to a trap vector without `legalize_mtvec`; an exception due whose own trap vector is Vectored with
a base that is not a multiple of 128. Two clauses are the model's. Part 1b also refuses SRET in supervisor mode
without the premise TSR = 0; the model reads TSR, runs SRET while it is 0 and has code 2 due while it is 1, as the
comment of R121 says the chip does (notes/assumptions/14.md). And the model has one refusal that Part 1b does not
list, an exception due through a vector of reserved MODE, which no legal state meets (notes/assumptions/19.md). -/
def Obligations.InstructionsStopOnlyWhereTheSpecRefuses : Prop :=
  ∀ (i : Instr) (s : State),
    (∀ r : Refusal, r ≠ .trapThroughReservedMode → (exec i s = .refused r ↔
      (r = .csrOutsideSpec ∧ i.wellFormed = false) ∨
        (r = .tvecWriteReservedMode ∧ s.cfg.legalizeMtvecSupplied = false ∧
          ∃ c v, (c = .mtvec ∨ c = .stvec) ∧ i.csrField? = some (csrNumber c) ∧ accessAllowed s c ∧
            valueWritten? i s c = some v ∧ ¬ v.extractLsb' 0 2 < 2#2) ∨
        (r = .vectoredTrapMisalignedBase ∧
          ∃ c v, exceptionDue i s c ∧ exceptionVector s c v ∧ v.extractLsb' 0 2 = 1#2 ∧ v &&& 0x7C#64 ≠ 0#64))) ∧
    (exec i s = .refused .trapThroughReservedMode ↔
      ∃ c v, exceptionDue i s c ∧ exceptionVector s c v ∧ ¬ v.extractLsb' 0 2 < 2#2) ∧
    (Legal s → exec i s ≠ .refused .trapThroughReservedMode)
end

