-- ==== Sys2Proof/Laws/State.lean ====
section
/-! SUPPORT. One lemma for each field of State and each named update of it: what the field holds after the
update. True by `rfl`, so that no later proof unfolds a record update. -/

namespace Sys2Proof.Machine

section writeX

variable (s : State) (i : RegIdx) (v : Word)

@[simp] theorem State.writeX_cfg : (s.writeX i v).cfg = s.cfg := rfl
@[simp] theorem State.writeX_pc : (s.writeX i v).pc = s.pc := rfl
@[simp] theorem State.writeX_priv : (s.writeX i v).priv = s.priv := rfl
@[simp] theorem State.writeX_x :
    (s.writeX i v).x =
      if h : i.val = 0 then s.x else s.x.set (i.val - 1) v := rfl
@[simp] theorem State.writeX_mstatus : (s.writeX i v).mstatus = s.mstatus := rfl
@[simp] theorem State.writeX_mie : (s.writeX i v).mie = s.mie := rfl
@[simp] theorem State.writeX_ssip : (s.writeX i v).ssip = s.ssip := rfl
@[simp] theorem State.writeX_stip : (s.writeX i v).stip = s.stip := rfl
@[simp] theorem State.writeX_seipSw : (s.writeX i v).seipSw = s.seipSw := rfl
@[simp] theorem State.writeX_mcause : (s.writeX i v).mcause = s.mcause := rfl
@[simp] theorem State.writeX_mtvec : (s.writeX i v).mtvec = s.mtvec := rfl
@[simp] theorem State.writeX_mepc : (s.writeX i v).mepc = s.mepc := rfl
@[simp] theorem State.writeX_mideleg : (s.writeX i v).mideleg = s.mideleg := rfl
@[simp] theorem State.writeX_medeleg : (s.writeX i v).medeleg = s.medeleg := rfl
@[simp] theorem State.writeX_stvec : (s.writeX i v).stvec = s.stvec := rfl
@[simp] theorem State.writeX_sepc : (s.writeX i v).sepc = s.sepc := rfl
@[simp] theorem State.writeX_scause : (s.writeX i v).scause = s.scause := rfl
@[simp] theorem State.writeX_lines : (s.writeX i v).lines = s.lines := rfl
@[simp] theorem State.writeX_mem : (s.writeX i v).mem = s.mem := rfl
@[simp] theorem State.writeX_agenda : (s.writeX i v).agenda = s.agenda := rfl
@[simp] theorem State.writeX_draws : (s.writeX i v).draws = s.draws := rfl

end writeX

section advance

variable (s : State)

@[simp] theorem State.advance_cfg : (s.advance).cfg = s.cfg := rfl
@[simp] theorem State.advance_pc : (s.advance).pc = s.pc + 4#64 := rfl
@[simp] theorem State.advance_priv : (s.advance).priv = s.priv := rfl
@[simp] theorem State.advance_x : (s.advance).x = s.x := rfl
@[simp] theorem State.advance_mstatus : (s.advance).mstatus = s.mstatus := rfl
@[simp] theorem State.advance_mie : (s.advance).mie = s.mie := rfl
@[simp] theorem State.advance_ssip : (s.advance).ssip = s.ssip := rfl
@[simp] theorem State.advance_stip : (s.advance).stip = s.stip := rfl
@[simp] theorem State.advance_seipSw : (s.advance).seipSw = s.seipSw := rfl
@[simp] theorem State.advance_mcause : (s.advance).mcause = s.mcause := rfl
@[simp] theorem State.advance_mtvec : (s.advance).mtvec = s.mtvec := rfl
@[simp] theorem State.advance_mepc : (s.advance).mepc = s.mepc := rfl
@[simp] theorem State.advance_mideleg : (s.advance).mideleg = s.mideleg := rfl
@[simp] theorem State.advance_medeleg : (s.advance).medeleg = s.medeleg := rfl
@[simp] theorem State.advance_stvec : (s.advance).stvec = s.stvec := rfl
@[simp] theorem State.advance_sepc : (s.advance).sepc = s.sepc := rfl
@[simp] theorem State.advance_scause : (s.advance).scause = s.scause := rfl
@[simp] theorem State.advance_lines : (s.advance).lines = s.lines := rfl
@[simp] theorem State.advance_mem : (s.advance).mem = s.mem := rfl
@[simp] theorem State.advance_agenda : (s.advance).agenda = s.agenda := rfl
@[simp] theorem State.advance_draws : (s.advance).draws = s.draws + 1 := rfl

end advance

section retire

variable (s : State) (i : RegIdx) (v : Word)

@[simp] theorem State.retire_cfg : (s.retire i v).cfg = s.cfg := rfl
@[simp] theorem State.retire_pc : (s.retire i v).pc = s.pc + 4#64 := rfl
@[simp] theorem State.retire_priv : (s.retire i v).priv = s.priv := rfl
@[simp] theorem State.retire_x : (s.retire i v).x = (s.writeX i v).x := rfl
@[simp] theorem State.retire_mstatus : (s.retire i v).mstatus = s.mstatus := rfl
@[simp] theorem State.retire_mie : (s.retire i v).mie = s.mie := rfl
@[simp] theorem State.retire_ssip : (s.retire i v).ssip = s.ssip := rfl
@[simp] theorem State.retire_stip : (s.retire i v).stip = s.stip := rfl
@[simp] theorem State.retire_seipSw : (s.retire i v).seipSw = s.seipSw := rfl
@[simp] theorem State.retire_mcause : (s.retire i v).mcause = s.mcause := rfl
@[simp] theorem State.retire_mtvec : (s.retire i v).mtvec = s.mtvec := rfl
@[simp] theorem State.retire_mepc : (s.retire i v).mepc = s.mepc := rfl
@[simp] theorem State.retire_mideleg : (s.retire i v).mideleg = s.mideleg := rfl
@[simp] theorem State.retire_medeleg : (s.retire i v).medeleg = s.medeleg := rfl
@[simp] theorem State.retire_stvec : (s.retire i v).stvec = s.stvec := rfl
@[simp] theorem State.retire_sepc : (s.retire i v).sepc = s.sepc := rfl
@[simp] theorem State.retire_scause : (s.retire i v).scause = s.scause := rfl
@[simp] theorem State.retire_lines : (s.retire i v).lines = s.lines := rfl
@[simp] theorem State.retire_mem : (s.retire i v).mem = s.mem := rfl
@[simp] theorem State.retire_agenda : (s.retire i v).agenda = s.agenda := rfl
@[simp] theorem State.retire_draws : (s.retire i v).draws = s.draws + 1 := rfl

end retire

section enterMachine

variable (s : State) (c : Cause) (a : Word)

@[simp] theorem State.enterMachine_cfg : (s.enterMachine c a).cfg = s.cfg := rfl
@[simp] theorem State.enterMachine_pc : (s.enterMachine c a).pc = a := rfl
@[simp] theorem State.enterMachine_priv : (s.enterMachine c a).priv = .M := rfl
@[simp] theorem State.enterMachine_x : (s.enterMachine c a).x = s.x := rfl
@[simp] theorem State.enterMachine_mstatus :
    (s.enterMachine c a).mstatus =
      { s.mstatus with mpie := s.mstatus.mie, mie := false, mpp := s.priv } := rfl
@[simp] theorem State.enterMachine_mie : (s.enterMachine c a).mie = s.mie := rfl
@[simp] theorem State.enterMachine_ssip : (s.enterMachine c a).ssip = s.ssip := rfl
@[simp] theorem State.enterMachine_stip : (s.enterMachine c a).stip = s.stip := rfl
@[simp] theorem State.enterMachine_seipSw : (s.enterMachine c a).seipSw = s.seipSw := rfl
@[simp] theorem State.enterMachine_mcause : (s.enterMachine c a).mcause = causeWord c := rfl
@[simp] theorem State.enterMachine_mtvec : (s.enterMachine c a).mtvec = s.mtvec := rfl
@[simp] theorem State.enterMachine_mepc : (s.enterMachine c a).mepc = s.pc := rfl
@[simp] theorem State.enterMachine_mideleg : (s.enterMachine c a).mideleg = s.mideleg := rfl
@[simp] theorem State.enterMachine_medeleg : (s.enterMachine c a).medeleg = s.medeleg := rfl
@[simp] theorem State.enterMachine_stvec : (s.enterMachine c a).stvec = s.stvec := rfl
@[simp] theorem State.enterMachine_sepc : (s.enterMachine c a).sepc = s.sepc := rfl
@[simp] theorem State.enterMachine_scause : (s.enterMachine c a).scause = s.scause := rfl
@[simp] theorem State.enterMachine_lines : (s.enterMachine c a).lines = s.lines := rfl
@[simp] theorem State.enterMachine_mem : (s.enterMachine c a).mem = s.mem := rfl
@[simp] theorem State.enterMachine_agenda : (s.enterMachine c a).agenda = s.agenda := rfl
@[simp] theorem State.enterMachine_draws : (s.enterMachine c a).draws = s.draws := rfl

end enterMachine

section enterSupervisor

variable (s : State) (c : Cause) (a : Word)

@[simp] theorem State.enterSupervisor_cfg : (s.enterSupervisor c a).cfg = s.cfg := rfl
@[simp] theorem State.enterSupervisor_pc : (s.enterSupervisor c a).pc = a := rfl
@[simp] theorem State.enterSupervisor_priv : (s.enterSupervisor c a).priv = .S := rfl
@[simp] theorem State.enterSupervisor_x : (s.enterSupervisor c a).x = s.x := rfl
@[simp] theorem State.enterSupervisor_mstatus :
    (s.enterSupervisor c a).mstatus =
      { s.mstatus with spie := s.mstatus.sie, sie := false, spp := decide (s.priv = .S) } := rfl
@[simp] theorem State.enterSupervisor_mie : (s.enterSupervisor c a).mie = s.mie := rfl
@[simp] theorem State.enterSupervisor_ssip : (s.enterSupervisor c a).ssip = s.ssip := rfl
@[simp] theorem State.enterSupervisor_stip : (s.enterSupervisor c a).stip = s.stip := rfl
@[simp] theorem State.enterSupervisor_seipSw : (s.enterSupervisor c a).seipSw = s.seipSw := rfl
@[simp] theorem State.enterSupervisor_mcause : (s.enterSupervisor c a).mcause = s.mcause := rfl
@[simp] theorem State.enterSupervisor_mtvec : (s.enterSupervisor c a).mtvec = s.mtvec := rfl
@[simp] theorem State.enterSupervisor_mepc : (s.enterSupervisor c a).mepc = s.mepc := rfl
@[simp] theorem State.enterSupervisor_mideleg : (s.enterSupervisor c a).mideleg = s.mideleg := rfl
@[simp] theorem State.enterSupervisor_medeleg : (s.enterSupervisor c a).medeleg = s.medeleg := rfl
@[simp] theorem State.enterSupervisor_stvec : (s.enterSupervisor c a).stvec = s.stvec := rfl
@[simp] theorem State.enterSupervisor_sepc : (s.enterSupervisor c a).sepc = s.pc := rfl
@[simp] theorem State.enterSupervisor_scause : (s.enterSupervisor c a).scause = causeWord c := rfl
@[simp] theorem State.enterSupervisor_lines : (s.enterSupervisor c a).lines = s.lines := rfl
@[simp] theorem State.enterSupervisor_mem : (s.enterSupervisor c a).mem = s.mem := rfl
@[simp] theorem State.enterSupervisor_agenda : (s.enterSupervisor c a).agenda = s.agenda := rfl
@[simp] theorem State.enterSupervisor_draws : (s.enterSupervisor c a).draws = s.draws := rfl

end enterSupervisor

section returnMachine

variable (s : State)

@[simp] theorem State.returnMachine_cfg : (s.returnMachine).cfg = s.cfg := rfl
@[simp] theorem State.returnMachine_pc : (s.returnMachine).pc = s.mepc := rfl
@[simp] theorem State.returnMachine_priv : (s.returnMachine).priv = s.mstatus.mpp := rfl
@[simp] theorem State.returnMachine_x : (s.returnMachine).x = s.x := rfl
@[simp] theorem State.returnMachine_mstatus :
    (s.returnMachine).mstatus =
      { s.mstatus with mie := s.mstatus.mpie, mpie := true, mpp := s.cfg.leastMode } := rfl
@[simp] theorem State.returnMachine_mie : (s.returnMachine).mie = s.mie := rfl
@[simp] theorem State.returnMachine_ssip : (s.returnMachine).ssip = s.ssip := rfl
@[simp] theorem State.returnMachine_stip : (s.returnMachine).stip = s.stip := rfl
@[simp] theorem State.returnMachine_seipSw : (s.returnMachine).seipSw = s.seipSw := rfl
@[simp] theorem State.returnMachine_mcause : (s.returnMachine).mcause = s.mcause := rfl
@[simp] theorem State.returnMachine_mtvec : (s.returnMachine).mtvec = s.mtvec := rfl
@[simp] theorem State.returnMachine_mepc : (s.returnMachine).mepc = s.mepc := rfl
@[simp] theorem State.returnMachine_mideleg : (s.returnMachine).mideleg = s.mideleg := rfl
@[simp] theorem State.returnMachine_medeleg : (s.returnMachine).medeleg = s.medeleg := rfl
@[simp] theorem State.returnMachine_stvec : (s.returnMachine).stvec = s.stvec := rfl
@[simp] theorem State.returnMachine_sepc : (s.returnMachine).sepc = s.sepc := rfl
@[simp] theorem State.returnMachine_scause : (s.returnMachine).scause = s.scause := rfl
@[simp] theorem State.returnMachine_lines : (s.returnMachine).lines = s.lines := rfl
@[simp] theorem State.returnMachine_mem : (s.returnMachine).mem = s.mem := rfl
@[simp] theorem State.returnMachine_agenda : (s.returnMachine).agenda = s.agenda := rfl
@[simp] theorem State.returnMachine_draws : (s.returnMachine).draws = s.draws := rfl

end returnMachine

section returnSupervisor

variable (s : State)

@[simp] theorem State.returnSupervisor_cfg : (s.returnSupervisor).cfg = s.cfg := rfl
@[simp] theorem State.returnSupervisor_pc : (s.returnSupervisor).pc = s.sepc := rfl
@[simp] theorem State.returnSupervisor_priv :
    (s.returnSupervisor).priv =
      (if s.mstatus.spp then .S else .U) := rfl
@[simp] theorem State.returnSupervisor_x : (s.returnSupervisor).x = s.x := rfl
@[simp] theorem State.returnSupervisor_mstatus :
    (s.returnSupervisor).mstatus =
      { s.mstatus with sie := s.mstatus.spie, spie := true, spp := false } := rfl
@[simp] theorem State.returnSupervisor_mie : (s.returnSupervisor).mie = s.mie := rfl
@[simp] theorem State.returnSupervisor_ssip : (s.returnSupervisor).ssip = s.ssip := rfl
@[simp] theorem State.returnSupervisor_stip : (s.returnSupervisor).stip = s.stip := rfl
@[simp] theorem State.returnSupervisor_seipSw : (s.returnSupervisor).seipSw = s.seipSw := rfl
@[simp] theorem State.returnSupervisor_mcause : (s.returnSupervisor).mcause = s.mcause := rfl
@[simp] theorem State.returnSupervisor_mtvec : (s.returnSupervisor).mtvec = s.mtvec := rfl
@[simp] theorem State.returnSupervisor_mepc : (s.returnSupervisor).mepc = s.mepc := rfl
@[simp] theorem State.returnSupervisor_mideleg : (s.returnSupervisor).mideleg = s.mideleg := rfl
@[simp] theorem State.returnSupervisor_medeleg : (s.returnSupervisor).medeleg = s.medeleg := rfl
@[simp] theorem State.returnSupervisor_stvec : (s.returnSupervisor).stvec = s.stvec := rfl
@[simp] theorem State.returnSupervisor_sepc : (s.returnSupervisor).sepc = s.sepc := rfl
@[simp] theorem State.returnSupervisor_scause : (s.returnSupervisor).scause = s.scause := rfl
@[simp] theorem State.returnSupervisor_lines : (s.returnSupervisor).lines = s.lines := rfl
@[simp] theorem State.returnSupervisor_mem : (s.returnSupervisor).mem = s.mem := rfl
@[simp] theorem State.returnSupervisor_agenda : (s.returnSupervisor).agenda = s.agenda := rfl
@[simp] theorem State.returnSupervisor_draws : (s.returnSupervisor).draws = s.draws := rfl

end returnSupervisor

section clintTurn

variable (s : State) (a b : Bool)

@[simp] theorem State.clintTurn_cfg : (s.clintTurn a b).cfg = s.cfg := rfl
@[simp] theorem State.clintTurn_pc : (s.clintTurn a b).pc = s.pc := rfl
@[simp] theorem State.clintTurn_priv : (s.clintTurn a b).priv = s.priv := rfl
@[simp] theorem State.clintTurn_x : (s.clintTurn a b).x = s.x := rfl
@[simp] theorem State.clintTurn_mstatus : (s.clintTurn a b).mstatus = s.mstatus := rfl
@[simp] theorem State.clintTurn_mie : (s.clintTurn a b).mie = s.mie := rfl
@[simp] theorem State.clintTurn_ssip : (s.clintTurn a b).ssip = s.ssip := rfl
@[simp] theorem State.clintTurn_stip : (s.clintTurn a b).stip = s.stip := rfl
@[simp] theorem State.clintTurn_seipSw : (s.clintTurn a b).seipSw = s.seipSw := rfl
@[simp] theorem State.clintTurn_mcause : (s.clintTurn a b).mcause = s.mcause := rfl
@[simp] theorem State.clintTurn_mtvec : (s.clintTurn a b).mtvec = s.mtvec := rfl
@[simp] theorem State.clintTurn_mepc : (s.clintTurn a b).mepc = s.mepc := rfl
@[simp] theorem State.clintTurn_mideleg : (s.clintTurn a b).mideleg = s.mideleg := rfl
@[simp] theorem State.clintTurn_medeleg : (s.clintTurn a b).medeleg = s.medeleg := rfl
@[simp] theorem State.clintTurn_stvec : (s.clintTurn a b).stvec = s.stvec := rfl
@[simp] theorem State.clintTurn_sepc : (s.clintTurn a b).sepc = s.sepc := rfl
@[simp] theorem State.clintTurn_scause : (s.clintTurn a b).scause = s.scause := rfl
@[simp] theorem State.clintTurn_lines : (s.clintTurn a b).lines = { s.lines with msip := a, mtip := b } := rfl
@[simp] theorem State.clintTurn_mem : (s.clintTurn a b).mem = s.mem := rfl
@[simp] theorem State.clintTurn_agenda : (s.clintTurn a b).agenda = s.agenda := rfl
@[simp] theorem State.clintTurn_draws : (s.clintTurn a b).draws = s.draws := rfl

end clintTurn

section plicTurn

variable (s : State) (a b : Bool)

@[simp] theorem State.plicTurn_cfg : (s.plicTurn a b).cfg = s.cfg := rfl
@[simp] theorem State.plicTurn_pc : (s.plicTurn a b).pc = s.pc := rfl
@[simp] theorem State.plicTurn_priv : (s.plicTurn a b).priv = s.priv := rfl
@[simp] theorem State.plicTurn_x : (s.plicTurn a b).x = s.x := rfl
@[simp] theorem State.plicTurn_mstatus : (s.plicTurn a b).mstatus = s.mstatus := rfl
@[simp] theorem State.plicTurn_mie : (s.plicTurn a b).mie = s.mie := rfl
@[simp] theorem State.plicTurn_ssip : (s.plicTurn a b).ssip = s.ssip := rfl
@[simp] theorem State.plicTurn_stip : (s.plicTurn a b).stip = s.stip := rfl
@[simp] theorem State.plicTurn_seipSw : (s.plicTurn a b).seipSw = s.seipSw := rfl
@[simp] theorem State.plicTurn_mcause : (s.plicTurn a b).mcause = s.mcause := rfl
@[simp] theorem State.plicTurn_mtvec : (s.plicTurn a b).mtvec = s.mtvec := rfl
@[simp] theorem State.plicTurn_mepc : (s.plicTurn a b).mepc = s.mepc := rfl
@[simp] theorem State.plicTurn_mideleg : (s.plicTurn a b).mideleg = s.mideleg := rfl
@[simp] theorem State.plicTurn_medeleg : (s.plicTurn a b).medeleg = s.medeleg := rfl
@[simp] theorem State.plicTurn_stvec : (s.plicTurn a b).stvec = s.stvec := rfl
@[simp] theorem State.plicTurn_sepc : (s.plicTurn a b).sepc = s.sepc := rfl
@[simp] theorem State.plicTurn_scause : (s.plicTurn a b).scause = s.scause := rfl
@[simp] theorem State.plicTurn_lines : (s.plicTurn a b).lines = { s.lines with meip := a, seip := b } := rfl
@[simp] theorem State.plicTurn_mem : (s.plicTurn a b).mem = s.mem := rfl
@[simp] theorem State.plicTurn_agenda : (s.plicTurn a b).agenda = s.agenda := rfl
@[simp] theorem State.plicTurn_draws : (s.plicTurn a b).draws = s.draws := rfl

end plicTurn

section popTurn

variable (s : State)

@[simp] theorem State.popTurn_cfg : (s.popTurn).cfg = s.cfg := rfl
@[simp] theorem State.popTurn_pc : (s.popTurn).pc = s.pc := rfl
@[simp] theorem State.popTurn_priv : (s.popTurn).priv = s.priv := rfl
@[simp] theorem State.popTurn_x : (s.popTurn).x = s.x := rfl
@[simp] theorem State.popTurn_mstatus : (s.popTurn).mstatus = s.mstatus := rfl
@[simp] theorem State.popTurn_mie : (s.popTurn).mie = s.mie := rfl
@[simp] theorem State.popTurn_ssip : (s.popTurn).ssip = s.ssip := rfl
@[simp] theorem State.popTurn_stip : (s.popTurn).stip = s.stip := rfl
@[simp] theorem State.popTurn_seipSw : (s.popTurn).seipSw = s.seipSw := rfl
@[simp] theorem State.popTurn_mcause : (s.popTurn).mcause = s.mcause := rfl
@[simp] theorem State.popTurn_mtvec : (s.popTurn).mtvec = s.mtvec := rfl
@[simp] theorem State.popTurn_mepc : (s.popTurn).mepc = s.mepc := rfl
@[simp] theorem State.popTurn_mideleg : (s.popTurn).mideleg = s.mideleg := rfl
@[simp] theorem State.popTurn_medeleg : (s.popTurn).medeleg = s.medeleg := rfl
@[simp] theorem State.popTurn_stvec : (s.popTurn).stvec = s.stvec := rfl
@[simp] theorem State.popTurn_sepc : (s.popTurn).sepc = s.sepc := rfl
@[simp] theorem State.popTurn_scause : (s.popTurn).scause = s.scause := rfl
@[simp] theorem State.popTurn_lines : (s.popTurn).lines = s.lines := rfl
@[simp] theorem State.popTurn_mem : (s.popTurn).mem = s.mem := rfl
@[simp] theorem State.popTurn_agenda : (s.popTurn).agenda = s.agenda.tail := rfl
@[simp] theorem State.popTurn_draws : (s.popTurn).draws = s.draws := rfl

end popTurn

section resetTurn

variable (s : State) (u : ResetDraw)

@[simp] theorem State.resetTurn_cfg : (s.resetTurn u).cfg = s.cfg := rfl
@[simp] theorem State.resetTurn_pc : (s.resetTurn u).pc = s.cfg.resetPc := rfl
@[simp] theorem State.resetTurn_priv : (s.resetTurn u).priv = .M := rfl
@[simp] theorem State.resetTurn_x : (s.resetTurn u).x = u.x := rfl
@[simp] theorem State.resetTurn_mstatus :
    (s.resetTurn u).mstatus =
      { sie := false, mie := false, spie := s.cfg.hasS && u.spie, mpie := u.mpie, spp := s.cfg.hasS && u.spp, mpp := resetMpp s.cfg u.mpp, hi := resetMstatusHi u.mstatusHi } := rfl
@[simp] theorem State.resetTurn_mie : (s.resetTurn u).mie = resetMie s.cfg u.mie := rfl
@[simp] theorem State.resetTurn_ssip : (s.resetTurn u).ssip = (s.cfg.hasS && u.ssip) := rfl
@[simp] theorem State.resetTurn_stip : (s.resetTurn u).stip = (s.cfg.hasS && u.stip) := rfl
@[simp] theorem State.resetTurn_seipSw : (s.resetTurn u).seipSw = (s.cfg.hasS && u.seipSw) := rfl
@[simp] theorem State.resetTurn_mcause : (s.resetTurn u).mcause = u.mcause := rfl
@[simp] theorem State.resetTurn_mtvec : (s.resetTurn u).mtvec = resetTvec u.mtvec := rfl
@[simp] theorem State.resetTurn_mepc : (s.resetTurn u).mepc = resetEpc s.cfg u.mepc := rfl
@[simp] theorem State.resetTurn_mideleg : (s.resetTurn u).mideleg = 0#64 := rfl
@[simp] theorem State.resetTurn_medeleg : (s.resetTurn u).medeleg = 0#64 := rfl
@[simp] theorem State.resetTurn_stvec : (s.resetTurn u).stvec = resetTvec u.stvec := rfl
@[simp] theorem State.resetTurn_sepc : (s.resetTurn u).sepc = resetEpc s.cfg u.sepc := rfl
@[simp] theorem State.resetTurn_scause : (s.resetTurn u).scause = u.scause := rfl
@[simp] theorem State.resetTurn_lines : (s.resetTurn u).lines = s.lines := rfl
@[simp] theorem State.resetTurn_mem : (s.resetTurn u).mem = s.mem := rfl
@[simp] theorem State.resetTurn_agenda : (s.resetTurn u).agenda = s.agenda := rfl
@[simp] theorem State.resetTurn_draws : (s.resetTurn u).draws = s.draws := rfl

end resetTurn

end Sys2Proof.Machine
end

