-- ==== Sys2Proof/Laws/Flags.lean ====
section
/-! SUPPORT. The bits of the composed control words, so that no later proof unfolds their composition. -/

namespace Sys2Proof.Machine

theorem bitAt_getLsbD (b : Bool) {k j : Nat} (hj : j < 64) :
    (bitAt b k).getLsbD j = (decide (j = k) && b) := by
  simp only [bitAt, BitVec.getLsbD_shiftLeft, BitVec.getLsbD_setWidth]
  by_cases h : j < k
  · simp [h, show j ≠ k by omega]
  · by_cases h2 : j = k
    · subst h2
      simp [hj]
    · have : (BitVec.ofBool b).getLsbD (j - k) = false := BitVec.getLsbD_of_ge _ _ (by omega)
      simp [this, h2]

/-- The bits of *mip* (R36, R131). -/
theorem mipWith_getLsbD (s : State) (b : Bool) {k : Nat} (hk : k < 64) :
    (s.mipWith b).getLsbD k =
      match k with
      | 1 => s.sBit s.ssip
      | 3 => s.lines.msip
      | 5 => s.sBit s.stip
      | 7 => s.lines.mtip
      | 9 => s.sBit b
      | 11 => s.lines.meip
      | _ => false := by
  simp only [State.mipWith, BitVec.getLsbD_or, bitAt_getLsbD _ hk]
  by_cases h : k < 12
  · interval_cases k <;> simp
  · simp [show k ≠ 1 by omega, show k ≠ 3 by omega, show k ≠ 5 by omega, show k ≠ 7 by omega,
      show k ≠ 9 by omega, show k ≠ 11 by omega]

/-- The low 13 bits of *mstatus* (R24, R131). -/
theorem mstatusWord_getLsbD_low (s : State) {k : Nat} (hk : k < 13) :
    s.mstatusWord.getLsbD k =
      match k with
      | 1 => s.sBit s.mstatus.sie
      | 3 => s.mstatus.mie
      | 5 => s.sBit s.mstatus.spie
      | 7 => s.mstatus.mpie
      | 8 => s.sBit s.mstatus.spp
      | 11 => s.mstatus.mpp.code.getLsbD 0
      | 12 => s.mstatus.mpp.code.getLsbD 1
      | _ => false := by
  simp only [State.mstatusWord, BitVec.getLsbD_append]
  interval_cases k <;> simp

/-- The upper bits of *mstatus* (R32). -/
theorem mstatusWord_getLsbD_high (s : State) (k : Nat) :
    s.mstatusWord.getLsbD (13 + k) = s.mstatus.hi.getLsbD k := by
  simp only [State.mstatusWord, BitVec.getLsbD_append, Nat.sub_sub]
  simp only [show ¬ 13 + k < 1 by omega, show ¬ 13 + k - 1 < 1 by omega, show ¬ 13 + k - 2 < 1 by omega,
    show ¬ 13 + k - 3 < 1 by omega, show ¬ 13 + k - 4 < 1 by omega, show ¬ 13 + k - 5 < 1 by omega,
    show ¬ 13 + k - 6 < 1 by omega, show ¬ 13 + k - 7 < 1 by omega, show ¬ 13 + k - 8 < 1 by omega,
    show ¬ 13 + k - 9 < 2 by omega, show ¬ 13 + k - 11 < 2 by omega, if_false, Nat.reduceAdd,
    show 13 + k - 13 = k by omega]

end Sys2Proof.Machine
end

