-- ==== Sys2Proof/Laws/Operands.lean ====
section
/-! SUPPORT. General registers: what a read gives after a write. -/

namespace Sys2Proof.Machine

/-- `x0` reads 0. -/
@[simp] theorem readX_zero (s : State) : s.readX 0 = 0#64 := by simp [State.readX]

/-- A write to `x0` changes nothing. -/
@[simp] theorem writeX_zero (s : State) (v : Word) : s.writeX 0 v = s := by simp [State.writeX]

theorem readX_writeX_same (s : State) {i : RegIdx} (v : Word) (h : i ≠ 0) :
    (s.writeX i v).readX i = v := by
  have h0 : i.val ≠ 0 := fun h' => h (Fin.ext h')
  simp [State.readX, State.writeX, h0]

theorem readX_writeX_other (s : State) {i j : RegIdx} (v : Word) (h : j ≠ i) :
    (s.writeX i v).readX j = s.readX j := by
  have hv : j.val ≠ i.val := fun h' => h (Fin.ext h')
  by_cases hi : i.val = 0
  · simp [State.readX, State.writeX, hi]
  · by_cases hj : j.val = 0
    · simp [State.readX, hj]
    · have : i.val - 1 ≠ j.val - 1 := by omega
      simp [State.readX, State.writeX, hi, hj, Vector.getElem_set_ne _ _ this]

/-- Reading a register depends on the register file alone. -/
theorem readX_congr {s t : State} (h : t.x = s.x) (i : RegIdx) : t.readX i = s.readX i := by
  simp [State.readX, h]

/-- What `retire` leaves in the register it writes. -/
theorem readX_retire_same (s : State) {i : RegIdx} (v : Word) (h : i ≠ 0) :
    (s.retire i v).readX i = v :=
  readX_writeX_same s v h

/-- What `retire` leaves in every other register. -/
theorem readX_retire_other (s : State) {i j : RegIdx} (v : Word) (h : j ≠ i) :
    (s.retire i v).readX j = s.readX j :=
  readX_writeX_other s v h

end Sys2Proof.Machine
end

