-- ==== Sys2Proof/Laws/Traps.lean ====
section
/-! SUPPORT. What taking a trap can do, said once for each shared operation. -/

namespace Sys2Proof.Machine

/-- The target of a trap, where there is one: `base`, or a slot of a 128-byte-aligned table. -/
theorem trapTarget_ok {tvec : Word} {c : Cause} {a : Word} (h : trapTarget tvec c = .ok a) :
    (tvecMode tvec = 0b00#2 ∧ a = tvecBase tvec) ∨
      (tvecMode tvec = 0b01#2 ∧ baseAligned128 (tvecBase tvec) = true ∧
        a = tvecBase tvec + vectorOffset c) := by
  unfold trapTarget at h
  split at h
  · exact .inl ⟨‹_›, by simpa using h.symm⟩
  · split at h
    · split at h
      · exact .inr ⟨‹_›, ‹_›, by simpa using h.symm⟩
      · cases h
    · cases h

/-- What taking a trap can do: enter the level with the target in `pc`. -/
theorem enterTrap_next {lvl : Level} {c : Cause} {s t : State} (h : enterTrap lvl c s = .next t) :
    ∃ a, trapTarget (s.tvecOf lvl) c = .ok a ∧ t = s.enterLevel lvl c a := by
  unfold enterTrap at h
  split at h
  · rename_i a ha
    exact ⟨a, ha, by simpa using h.symm⟩
  · cases h

/-- Taking a trap whose target exists completes. -/
theorem enterTrap_of_target {lvl : Level} {c : Cause} {s : State} {a : Word}
    (h : trapTarget (s.tvecOf lvl) c = .ok a) : enterTrap lvl c s = .next (s.enterLevel lvl c a) := by
  simp [enterTrap, h]

/-- A trap is refused exactly where it has no target. -/
theorem enterTrap_refused {lvl : Level} {c : Cause} {s : State} {r : Refusal}
    (h : enterTrap lvl c s = .refused r) : trapTarget (s.tvecOf lvl) c = .error r := by
  unfold enterTrap at h
  split at h
  · cases h
  · rename_i e he
    simpa [he] using h

/-- What raising an exception can do. -/
theorem raise_next {e : ExcCause} {s t : State} (h : raise e s = .next t) :
    ∃ a, trapTarget (s.tvecOf (excLevel e s)) (.exception e) = .ok a ∧
      t = s.enterLevel (excLevel e s) (.exception e) a :=
  enterTrap_next h

/-- In machine mode every exception is taken into machine mode. -/
theorem excLevel_of_machine {e : ExcCause} {s : State} (h : s.priv = .M) : excLevel e s = .machine := by
  simp [excLevel, h]

/-- The general registers, the wires, the memory and the parameters are as before a trap. -/
theorem enterLevel_frame (s : State) (lvl : Level) (c : Cause) (a : Word) :
    (s.enterLevel lvl c a).x = s.x ∧ (s.enterLevel lvl c a).lines = s.lines ∧
      (s.enterLevel lvl c a).mem = s.mem ∧ (s.enterLevel lvl c a).cfg = s.cfg ∧
      (s.enterLevel lvl c a).agenda = s.agenda ∧ (s.enterLevel lvl c a).pc = a := by
  cases lvl <;> exact ⟨rfl, rfl, rfl, rfl, rfl, rfl⟩

/-- What `select` answers is a takeable cause at the level its delegation says. -/
theorem select_some {s : State} {i : IntCause} {lvl : Level} (h : select s = some (i, lvl)) :
    takeable s i = true ∧ (lvl = .machine ↔ mLevel s i = true) := by
  unfold select at h
  split at h
  · rename_i j hj
    have := List.find?_some hj
    simp_all
  · split at h
    · rename_i j hj
      have := List.find?_some hj
      simp only [Option.some.injEq, Prod.mk.injEq] at h
      obtain ⟨rfl, rfl⟩ := h
      simp_all
    · cases h

end Sys2Proof.Machine
end

