-- ==== Sys2Proof/Laws/Csr.lean ====
section
/-! SUPPORT. What the CSR operations can do, said once for each. -/

namespace Sys2Proof.Machine

/-- A number names a CSR exactly when it is that CSR's number. -/
theorem csrOfNumber_eq_some {n : BitVec 12} {c : Csr} : csrOfNumber? n = some c ↔ n = csrNumber c := by
  constructor
  · intro h
    have := List.find?_some h
    exact (by simpa using this : csrNumber c = n).symm
  · rintro rfl
    cases c <;> rfl

/-- What the access check answers when it allows the access (R133). -/
theorem csrCheck_allowed {s : State} {n : BitVec 12} {w : Bool} {c : Csr}
    (h : csrCheck s n w = .allowed c) :
    n = csrNumber c ∧ (csrIsAnnex c = true → s.cfg.hasS = true) ∧ ¬ s.priv.code < csrLowestMode n := by
  unfold csrCheck at h
  split at h
  · cases h
  · rename_i c' hc'
    have hn := csrOfNumber_eq_some.1 hc'
    split at h
    · cases h
    · split at h
      · cases h
      · split at h
        · cases h
        · simp only [CsrAccess.allowed.injEq] at h
          subst h
          refine ⟨hn, fun ha => ?_, ‹_›⟩
          simp_all

/-- What a CSR instruction can do: its body on an allowed CSR, or the illegal-instruction exception. -/
theorem csrAccess_next {s t : State} {n : BitVec 12} {w : Bool} {body : Csr → Result}
    (h : csrAccess s n w body = .next t) :
    (∃ c, csrCheck s n w = .allowed c ∧ body c = .next t) ∨
      (csrCheck s n w = .illegal ∧ raise .illegalInstruction s = .next t) := by
  unfold csrAccess at h
  split at h
  · cases h
  · exact .inr ⟨‹_›, h⟩
  · rename_i c hc
    exact .inl ⟨c, hc, h⟩

/-- A legal pair is stored exactly (R42). -/
theorem causeWritten_of_legal {v : Word} (s : State) (h : causeLegal v = true) : causeWritten s v = v := by
  simp [causeWritten, h]

/-- The Interrupt bit is stored as written, legal pair or not (R41, D30). -/
theorem causeWritten_interrupt (s : State) (v : Word) : (causeWritten s v).getLsbD 63 = v.getLsbD 63 := by
  unfold causeWritten
  split
  · rfl
  · rw [BitVec.getLsbD_append]
    simp

/-- Where going on from a result gives a next state. -/
theorem mapNext_next {r : Result} {f : State → State} {t : State} (h : mapNext r f = .next t) :
    ∃ w, r = .next w ∧ t = f w := by
  cases r with
  | next w => exact ⟨w, rfl, by simpa [mapNext] using h.symm⟩
  | fault e => cases h
  | refused e => cases h

/-- What a CSR write changes: the fields of its own register and nothing else. -/
theorem csrWrite_next {s t : State} {v : Word} {c : Csr} (h : csrWrite s v c = .next t) :
    t = { s with
      mstatus := t.mstatus, mie := t.mie, ssip := t.ssip, stip := t.stip, seipSw := t.seipSw,
      mcause := t.mcause, mtvec := t.mtvec, mepc := t.mepc, mideleg := t.mideleg,
      medeleg := t.medeleg, stvec := t.stvec, sepc := t.sepc, scause := t.scause } := by
  cases c
  case mtvec =>
    unfold csrWrite at h
    simp only at h
    split at h
    · cases h; rfl
    · cases h
  case stvec =>
    unfold csrWrite at h
    simp only at h
    split at h
    · cases h; rfl
    · cases h
  all_goals (cases h; rfl)

/-- What a read-and-write instruction can do. -/
theorem csrReadWrite_next {s t : State} {rd : RegIdx} {n : BitVec 12} {v : Word}
    (h : csrReadWrite s rd n v = .next t) :
    (∃ c w, csrCheck s n true = .allowed c ∧ csrWrite s v c = .next w ∧
        t = w.retire rd (csrRead s c)) ∨
      (csrCheck s n true = .illegal ∧ raise .illegalInstruction s = .next t) := by
  rcases csrAccess_next h with ⟨c, hc, hb⟩ | hi
  · obtain ⟨w, hw, ht⟩ := mapNext_next hb
    exact .inl ⟨c, w, hc, hw, ht⟩
  · exact .inr hi

/-- What a read-and-modify instruction can do. -/
theorem csrReadModify_next {s t : State} {rd : RegIdx} {n : BitVec 12} {dw : Bool} {f : Word → Word}
    (h : csrReadModify s rd n dw f = .next t) :
    (∃ c w, csrCheck s n dw = .allowed c ∧
        (if dw then csrWrite s (f (csrOld s c)) c = .next w else w = s) ∧
        t = w.retire rd (csrRead s c)) ∨
      (csrCheck s n dw = .illegal ∧ raise .illegalInstruction s = .next t) := by
  rcases csrAccess_next h with ⟨c, hc, hb⟩ | hi
  · refine .inl ⟨c, ?_⟩
    cases dw with
    | true =>
      obtain ⟨w, hw, ht⟩ := mapNext_next hb
      exact ⟨w, hc, by simpa using hw, ht⟩
    | false => exact ⟨s, hc, by simp, by simpa using hb.symm⟩
  · exact .inr hi

end Sys2Proof.Machine
end

