-- ==== Sys2Proof/Laws/Decode.lean ====
section
/-! SUPPORT. The fields of an assembled word, and a word from its fields. -/

namespace Sys2Proof

@[simp] theorem fieldCsr_assemble (a : BitVec 12) (m d : BitVec 5) (f : BitVec 3) :
    fieldCsr (assemble a m f d) = a := by
  apply BitVec.eq_of_getLsbD_eq
  intro k hk
  simp only [fieldCsr, assemble, BitVec.getLsbD_extractLsb', BitVec.getLsbD_append]
  interval_cases k <;> simp

@[simp] theorem fieldOpcode_assemble (a : BitVec 12) (m d : BitVec 5) (f : BitVec 3) :
    fieldOpcode (assemble a m f d) = opcodeSystem := by
  apply BitVec.eq_of_getLsbD_eq
  intro k hk
  simp only [fieldOpcode, assemble, BitVec.getLsbD_extractLsb', BitVec.getLsbD_append]
  interval_cases k <;> simp

@[simp] theorem fieldFunct3_assemble (a : BitVec 12) (m d : BitVec 5) (f : BitVec 3) :
    fieldFunct3 (assemble a m f d) = f := by
  apply BitVec.eq_of_getLsbD_eq
  intro k hk
  simp only [fieldFunct3, assemble, BitVec.getLsbD_extractLsb', BitVec.getLsbD_append]
  interval_cases k <;> simp

@[simp] theorem extractRd_assemble (a : BitVec 12) (m d : BitVec 5) (f : BitVec 3) :
    (assemble a m f d).extractLsb' 7 5 = d := by
  apply BitVec.eq_of_getLsbD_eq
  intro k hk
  simp only [assemble, BitVec.getLsbD_extractLsb', BitVec.getLsbD_append]
  interval_cases k <;> simp

@[simp] theorem extractMid_assemble (a : BitVec 12) (m d : BitVec 5) (f : BitVec 3) :
    (assemble a m f d).extractLsb' 15 5 = m := by
  apply BitVec.eq_of_getLsbD_eq
  intro k hk
  simp only [assemble, BitVec.getLsbD_extractLsb', BitVec.getLsbD_append]
  interval_cases k <;> simp

/-- The bits `[1:0]` of an assembled word are `0b11` (R100). -/
@[simp] theorem extractLow_assemble (a : BitVec 12) (m d : BitVec 5) (f : BitVec 3) :
    (assemble a m f d).extractLsb' 0 2 = 0b11#2 := by
  apply BitVec.eq_of_getLsbD_eq
  intro k hk
  simp only [assemble, opcodeSystem, BitVec.getLsbD_extractLsb', BitVec.getLsbD_append]
  interval_cases k <;> simp

/-- A SYSTEM word is assembled from its own fields. -/
theorem assemble_fields {w : InstrWord} (h : fieldOpcode w = opcodeSystem) :
    assemble (fieldCsr w) (w.extractLsb' 15 5) (fieldFunct3 w) (w.extractLsb' 7 5) = w := by
  rw [assemble, ← h]
  apply BitVec.eq_of_getLsbD_eq
  intro k hk
  simp only [fieldCsr, fieldFunct3, fieldOpcode, BitVec.getLsbD_append, BitVec.getLsbD_extractLsb']
  interval_cases k <;> simp

/-- A word from its bytes. -/
@[simp] theorem wordOfBytes_extract (w : InstrWord) :
    wordOfBytes (w.extractLsb' 0 8) (w.extractLsb' 8 8) (w.extractLsb' 16 8) (w.extractLsb' 24 8) = w := by
  apply BitVec.eq_of_getLsbD_eq
  intro k hk
  simp only [wordOfBytes, BitVec.getLsbD_append, BitVec.getLsbD_extractLsb']
  interval_cases k <;> simp

/-- The bytes of a word decode as the word does, and the bytes after them are left. -/
theorem decodeBytes_bytesOfWord (w : InstrWord) (rest : List Byte) :
    decodeBytes (bytesOfWord w ++ rest) = (decodeWord w).map (·, rest) := by
  simp [bytesOfWord, decodeBytes]

end Sys2Proof
end

