-- ==== Sys2Proof/Laws/Memory.lean ====
section
/-! SUPPORT. What the memory operations do, and that each keeps the canonical form. -/

namespace Sys2Proof.Machine

theorem readByte_writeByte_same (m : Memory) (a : Nat) (b : Byte) :
    readByte? (writeByte m a b) a = some b := by
  induction m with
  | nil => simp [writeByte, readByte?]
  | cons cell rest ih =>
    obtain ⟨a', b'⟩ := cell
    simp only [writeByte]
    split
    · simp [readByte?]
    · split
      · simp_all [readByte?]
      · have h : a' ≠ a := fun h => by simp_all
        simp [readByte?, h, ih]

theorem readByte_writeByte_other (m : Memory) {a a' : Nat} (b : Byte) (h : a' ≠ a) :
    readByte? (writeByte m a b) a' = readByte? m a' := by
  induction m with
  | nil => simp [writeByte, readByte?, Ne.symm h]
  | cons cell rest ih =>
    obtain ⟨c, b'⟩ := cell
    simp only [writeByte]
    split
    · simp [readByte?, Ne.symm h]
    · split
      · rename_i hc
        subst hc
        simp [readByte?, Ne.symm h]
      · simp [readByte?, ih]

theorem risingFrom_writeByte (m : Memory) (lo : Option Nat) (a : Nat) (b : Byte) (ha : a < 2 ^ 64)
    (hlo : ∀ l, lo = some l → l < a) (hm : risingFrom lo m = true) :
    risingFrom lo (writeByte m a b) = true := by
  induction m generalizing lo with
  | nil => cases lo <;> simp_all [writeByte, risingFrom]
  | cons cell rest ih =>
    obtain ⟨c, b'⟩ := cell
    simp only [risingFrom, Bool.and_eq_true, decide_eq_true_eq] at hm
    obtain ⟨⟨hl, hc⟩, hrest⟩ := hm
    simp only [writeByte]
    split
    · rename_i hac
      cases lo <;> simp_all [risingFrom]
    · split
      · cases lo <;> simp_all [risingFrom]
      · rename_i h1 h2
        have hca : ∀ l, some c = some l → l < a := by
          intro l hcl
          cases hcl
          omega
        have := ih (some c) hca hrest
        cases lo <;> simp_all [risingFrom]

/-- Writing a byte inside the address space keeps the canonical form. -/
theorem writeByte_wf {m : Memory} {a : Nat} (b : Byte) (ha : a < 2 ^ 64) (hm : Memory.wf m = true) :
    Memory.wf (writeByte m a b) = true :=
  risingFrom_writeByte m none a b ha (fun _ h => nomatch h) hm

/-- Writing bytes keeps the canonical form. -/
theorem writeBytes_wf {m : Memory} (a : Word) (bs : List Byte) (hm : Memory.wf m = true) :
    Memory.wf (writeBytes m a bs) = true := by
  induction bs generalizing m a with
  | nil => exact hm
  | cons b rest ih => exact ih _ (writeByte_wf b a.isLt hm)

/-- The memory after reset is in canonical form. -/
theorem reset_mem_wf : Memory.wf State.reset.mem = true := rfl

/-- What the four-byte read answers: the bytes at the four addresses. -/
theorem readBytes4_eq_some {m : Memory} {a : Word} {bs : List Byte} (h : readBytes4? m a = some bs) :
    ∃ b0 b1 b2 b3, readByte? m (addrPlus a 0) = some b0 ∧ readByte? m (addrPlus a 1) = some b1 ∧
      readByte? m (addrPlus a 2) = some b2 ∧ readByte? m (addrPlus a 3) = some b3 ∧
      bs = [b0, b1, b2, b3] := by
  simp only [readBytes4?, Option.bind_eq_bind, Option.bind_eq_some_iff, Option.pure_def,
    Option.some.injEq] at h
  obtain ⟨b0, h0, b1, h1, b2, h2, b3, h3, rfl⟩ := h
  exact ⟨b0, b1, b2, b3, h0, h1, h2, h3, rfl⟩

end Sys2Proof.Machine
end

