-- ==== Sys2Proof/Laws/Step.lean ====
section
/-! SUPPORT. What the hart's step and the machine's step can do. -/

namespace Sys2Proof.Machine

/-- What an instruction can do: take a trap, return from one, or access a CSR. -/
theorem exec_next {i : Instr} {s t : State} (h : exec i s = .next t) :
    (∃ e, raise e s = .next t) ∨
      (i = .mret ∧ s.priv = .M ∧ t = s.returnMachine) ∨
      (i = .sret ∧ s.priv ≠ .U ∧ s.cfg.hasS = true ∧ t = s.returnSupervisor) ∨
      (∃ dw c w, i.csrField? = some (csrNumber c) ∧ csrCheck s (csrNumber c) dw = .allowed c ∧
        ((∃ v, csrWrite s v c = .next w) ∨ w = s) ∧ t = w.retire i.destination (csrRead s c)) := by
  have hrw {rd n v} (hx : csrReadWrite s rd n v = .next t) :
      (∃ e, raise e s = .next t) ∨ (∃ dw c w, n = csrNumber c ∧ csrCheck s (csrNumber c) dw = .allowed c ∧
        ((∃ v, csrWrite s v c = .next w) ∨ w = s) ∧ t = w.retire rd (csrRead s c)) := by
    rcases csrReadWrite_next hx with ⟨c, w, hc, hw, ht⟩ | ⟨_, hr⟩
    · obtain rfl := (csrCheck_allowed hc).1
      exact .inr ⟨true, c, w, rfl, hc, .inl ⟨v, hw⟩, ht⟩
    · exact .inl ⟨_, hr⟩
  have hrm {rd n dw f} (hx : csrReadModify s rd n dw f = .next t) :
      (∃ e, raise e s = .next t) ∨ (∃ dw c w, n = csrNumber c ∧ csrCheck s (csrNumber c) dw = .allowed c ∧
        ((∃ v, csrWrite s v c = .next w) ∨ w = s) ∧ t = w.retire rd (csrRead s c)) := by
    rcases csrReadModify_next hx with ⟨c, w, hc, hw, ht⟩ | ⟨_, hr⟩
    · obtain rfl := (csrCheck_allowed hc).1
      cases dw with
      | true => exact .inr ⟨true, c, w, rfl, hc, .inl ⟨_, by simpa using hw⟩, ht⟩
      | false => exact .inr ⟨false, c, w, rfl, hc, .inr (by simpa using hw), ht⟩
    · exact .inl ⟨_, hr⟩
  cases i with
  | ecall => exact .inl ⟨_, h⟩
  | ebreak => exact .inl ⟨_, h⟩
  | sret =>
    simp only [exec, execSret] at h
    split at h
    · exact .inl ⟨_, h⟩
    · split at h
      · exact .inl ⟨_, h⟩
      · split at h
        · exact .inl ⟨_, h⟩
        · exact .inr (.inr (.inl ⟨rfl, ‹_›, by simp_all, by simpa using h.symm⟩))
  | mret =>
    simp only [exec, execMret] at h
    split at h
    · exact .inl ⟨_, h⟩
    · exact .inr (.inl ⟨rfl, by simp_all, by simpa using h.symm⟩)
  | csrrw rd n rs1 =>
    simp only [exec, execCsrrw] at h
    rcases hrw h with he | ⟨dw, c, w, rfl, hc, hw, ht⟩
    · exact .inl he
    · exact .inr (.inr (.inr ⟨dw, c, w, rfl, hc, hw, ht⟩))
  | csrrs rd n rs1 =>
    simp only [exec, execCsrrs] at h
    rcases hrm h with he | ⟨dw, c, w, rfl, hc, hw, ht⟩
    · exact .inl he
    · exact .inr (.inr (.inr ⟨dw, c, w, rfl, hc, hw, ht⟩))
  | csrrc rd n rs1 =>
    simp only [exec, execCsrrc] at h
    rcases hrm h with he | ⟨dw, c, w, rfl, hc, hw, ht⟩
    · exact .inl he
    · exact .inr (.inr (.inr ⟨dw, c, w, rfl, hc, hw, ht⟩))
  | csrrwi rd n u =>
    simp only [exec, execCsrrwi] at h
    rcases hrw h with he | ⟨dw, c, w, rfl, hc, hw, ht⟩
    · exact .inl he
    · exact .inr (.inr (.inr ⟨dw, c, w, rfl, hc, hw, ht⟩))
  | csrrsi rd n u =>
    simp only [exec, execCsrrsi] at h
    rcases hrm h with he | ⟨dw, c, w, rfl, hc, hw, ht⟩
    · exact .inl he
    · exact .inr (.inr (.inr ⟨dw, c, w, rfl, hc, hw, ht⟩))
  | csrrci rd n u =>
    simp only [exec, execCsrrci] at h
    rcases hrm h with he | ⟨dw, c, w, rfl, hc, hw, ht⟩
    · exact .inl he
    · exact .inr (.inr (.inr ⟨dw, c, w, rfl, hc, hw, ht⟩))

/-- What fetching and executing can do: run the instruction that the bytes at `pc` decode to. -/
theorem fetchAndExecute_next {s t : State} (h : fetchAndExecute s = .next t) :
    ∃ bs i rest, readBytes4? s.mem s.pc = some bs ∧ decodeBytes bs = .ok (i, rest) ∧
      exec i s = .next t := by
  unfold fetchAndExecute at h
  split at h
  · cases h
  · rename_i bs hbs
    split at h
    · cases h
    · rename_i i rest hd
      exact ⟨bs, i, rest, hbs, hd, h⟩

/-- What a step of the hart can do: take an interrupt, raise code 0, or run an instruction. -/
theorem hartStep_next {b : Bool} {s t : State} (h : hartStep b s = .next t) :
    (∃ i lvl, interruptTaken s b = some (i, lvl) ∧ enterTrap lvl (.interrupt i) s = .next t) ∨
      (interruptTaken s b = none ∧ pcAligned s = false ∧
        raise .instructionAddressMisaligned s = .next t) ∨
      (interruptTaken s b = none ∧ pcAligned s = true ∧ fetchAndExecute s = .next t) := by
  unfold hartStep at h
  split at h
  · rename_i i lvl hi
    exact .inl ⟨i, lvl, hi, h⟩
  · split at h
    · exact .inr (.inr ⟨‹_›, ‹_›, h⟩)
    · exact .inr (.inl ⟨‹_›, by simp_all, h⟩)

/-- An interrupt that is taken was selected. -/
theorem interruptTaken_some {b : Bool} {s : State} {p : IntCause × Level}
    (h : interruptTaken s b = some p) : select s = some p := by
  unfold interruptTaken at h
  split at h
  · exact h
  · cases h

/-- What a step of the machine can do: a step of the hart, or a turn of the CLINT, the PLIC or reset. -/
theorem step_next {s t : State} (h : step s = .next t) :
    (∃ b, hartStep b s.popTurn = .next t) ∨
      (∃ a b, t = s.popTurn.clintTurn a b) ∨ (∃ a b, t = s.popTurn.plicTurn a b) ∨
      (∃ u, t = s.popTurn.resetTurn u) := by
  unfold step nextTurn at h
  split at h
  · rename_i ha
    refine .inl ⟨true, ?_⟩
    have : s.popTurn = s := by
      cases s
      simp_all [State.popTurn]
    rwa [this]
  · exact .inl ⟨_, h⟩
  · exact .inr (.inl ⟨_, _, by simpa using h.symm⟩)
  · exact .inr (.inr (.inl ⟨_, _, by simpa using h.symm⟩))
  · exact .inr (.inr (.inr ⟨_, by simpa using h.symm⟩))

end Sys2Proof.Machine
end

