-- ==== Sys2Proof/Tests/Slice0.lean ====
section
/-! SUPPORT. The model's own tests. Expected values are those of spec/95_test_vectors.md, whose row each test
names, or are worked by hand from the rule named. Then, for each obligation with hypotheses, a state and operands
that meet them. -/

namespace Sys2Proof.Tests

open Sys2Proof Sys2Proof.Machine Sys2Proof.Claims

/-! ### The checks of WellFormed -/

theorem test_ill_formed_csrrw : Instr.wellFormed (.csrrw 0 0x340#12 0) = false := by decide
theorem test_ill_formed_csrrs : Instr.wellFormed (.csrrs 10 0x340#12 0) = false := by decide
theorem test_ill_formed_csrrc : Instr.wellFormed (.csrrc 0 0xF14#12 1) = false := by decide
theorem test_ill_formed_csrrwi : Instr.wellFormed (.csrrwi 0 0x000#12 1#5) = false := by decide
theorem test_ill_formed_csrrsi : Instr.wellFormed (.csrrsi 0 0x343#12 1#5) = false := by decide
theorem test_ill_formed_csrrci : Instr.wellFormed (.csrrci 0 0xFFF#12 1#5) = false := by decide
theorem test_well_formed_csrrs : Instr.wellFormed (.csrrs 7 0x344#12 0) = true := by decide

/-! ### Decoding, on words written out from the encodings (K1 to K17) -/

theorem test_decode_ecall : decodeTableWord 32 0x00000073 = some .ecall := by decide
theorem test_decode_ebreak : decodeTableWord 32 0x00100073 = some .ebreak := by decide
theorem test_decode_sret : decodeTableWord 32 0x10200073 = some .sret := by decide
theorem test_decode_mret : decodeTableWord 32 0x30200073 = some .mret := by decide
theorem test_decode_csrrw : decodeTableWord 32 0x30529073 = some (.csrrw 0 0x305#12 5) := by decide
theorem test_decode_csrrs : decodeTableWord 32 0x344023F3 = some (.csrrs 7 0x344#12 0) := by decide
theorem test_decode_csrrc : decodeTableWord 32 0x30433073 = some (.csrrc 0 0x304#12 6) := by decide
theorem test_decode_csrrwi : decodeTableWord 32 0x304FD073 = some (.csrrwi 0 0x304#12 31#5) := by decide
theorem test_decode_csrrsi : decodeTableWord 32 0x30046073 = some (.csrrsi 0 0x300#12 8#5) := by decide
theorem test_decode_csrrci : decodeTableWord 32 0x300472F3 = some (.csrrci 5 0x300#12 8#5) := by decide
/-- K11 to K15 and K17. -/
theorem test_decode_refused :
    decodeWord 0x10500073#32 = .error .systemEncoding ∧ decodeWord 0x00200073#32 = .error .systemEncoding ∧
      decodeWord 0x302000F3#32 = .error .systemEncoding ∧ decodeWord 0x30004073#32 = .error .systemEncoding ∧
      decodeWord 0x00000013#32 = .error .notSystem ∧ decodeWord 0x00008082#32 = .error .sixteenBit := by decide
theorem test_encode_bytes : encodeBytes (.csrrs 7 0x344#12 0) = [0xF3#8, 0x23#8, 0x40#8, 0x34#8] := by decide

/-! ### A small state to start from -/

/-- The fields of *mstatus* at the bits of R24, MPP `0b10` read as U. -/
def fields (w : Word) : Mstatus where
  sie := w.getLsbD 1
  mie := w.getLsbD 3
  spie := w.getLsbD 5
  mpie := w.getLsbD 7
  spp := w.getLsbD 8
  mpp := (Priv.ofCode? (w.extractLsb' 11 2)).getD .U
  hi := w.extractLsb' 13 51

/-- The reset state in another mode, with *mstatus* at `w` and `x6` at `v`. -/
def start (p : Priv) (w v : Word) : State :=
  { State.reset with priv := p, mstatus := fields w }.writeX 6 v

/-- The next state, where there is one. -/
def after (r : Result) : Option State :=
  match r with
  | .next t => some t
  | .fault _ => none
  | .refused _ => none

/-- The registers a trap into machine mode or a return from it changes. -/
def machineView (t : State) : Priv × Word × Word × Word × Word := (t.priv, t.pc, t.mstatusWord, t.mepc, t.mcause)

/-- The same for supervisor mode. -/
def supervisorView (t : State) : Priv × Word × Word × Word × Word := (t.priv, t.pc, t.mstatusWord, t.sepc, t.scause)

/-! ### One step of each instruction -/

/-- B1. -/
theorem test_ecall_machine :
    (after (exec .ecall { start .M 0x8#64 0#64 with pc := 0x80000008#64, mtvec := 0x80000100#64 })).map machineView =
      some (.M, 0x80000100#64, 0x1880#64, 0x80000008#64, 0xB#64) := by decide
/-- B4. -/
theorem test_ecall_delegated :
    (after (exec .ecall { start .U 0x2#64 0#64 with
      pc := 0x80002000#64, stvec := 0x80000200#64, medeleg := 0x100#64 })).map supervisorView =
      some (.S, 0x80000200#64, 0x20#64, 0x80002000#64, 0x8#64) := by decide
/-- B5. -/
theorem test_ebreak_vectored :
    (after (exec .ebreak { start .U 0x88#64 0#64 with pc := 0x80002000#64, mtvec := 0x80000201#64 })).map machineView =
      some (.M, 0x80000200#64, 0x80#64, 0x80002000#64, 0x3#64) := by decide
/-- B6. -/
theorem test_ebreak_never_delegated_in_machine :
    (after (exec .ebreak { start .M 0#64 0#64 with mtvec := 0x80000100#64, medeleg := 0xB3FF#64 })).map machineView =
      some (.M, 0x80000100#64, 0x1800#64, 0x80000000#64, 0x3#64) := by decide
/-- V5. -/
theorem test_mret_to_supervisor :
    (after (exec .mret { start .M 0x09A2#64 0#64 with mepc := 0x80001000#64 })).map machineView =
      some (.S, 0x80001000#64, 0x1AA#64, 0x80001000#64, 0#64) := by decide
/-- V7, entered as the E-rows say. -/
theorem test_mret_in_user_mode :
    (after (exec .mret { start .U 0x8#64 0#64 with pc := 0x1000#64, mtvec := 0x80000100#64 })).map machineView =
      some (.M, 0x80000100#64, 0x80#64, 0x1000#64, 0x2#64) := by decide
/-- V11. -/
theorem test_sret_from_machine :
    (after (exec .sret { start .M 0x1988#64 0#64 with sepc := 0x80001000#64 })).map supervisorView =
      some (.S, 0x80001000#64, 0x18A8#64, 0x80001000#64, 0#64) := by decide
/-- V10. -/
theorem test_sret_to_user :
    (after (exec .sret { start .S 0x20#64 0#64 with sepc := 0x80001000#64 })).map supervisorView =
      some (.U, 0x80001000#64, 0x22#64, 0x80001000#64, 0#64) := by decide
/-- W22. -/
theorem test_csrrw_mip :
    (after (exec (.csrrw 5 0x344#12 6) { start .M 0#64 0#64 with lines := { Lines.low with seip := true } })).map
      (fun t => (t.readX 5, t.seipSw, t.mipWord)) = some (0x200#64, false, 0x200#64) := by decide
/-- W1. -/
theorem test_csrrw_mstatus :
    (after (exec (.csrrw 5 0x300#12 6) (start .M 0#64 (BitVec.allOnes 64)))).map
      (fun t => (t.readX 5, t.mstatusWord)) = some (0#64, 0x19AA#64) := by decide
/-- W6. -/
theorem test_csrrs_mip_keeps_the_wire_out :
    (after (exec (.csrrs 0 0x344#12 6)
      { start .M 0#64 2#64 with lines := { Lines.low with seip := true } })).map
      (fun t => (t.ssip, t.seipSw, t.mipWord)) = some (true, false, 0x202#64) := by decide
/-- W13. -/
theorem test_csrrs_rd_is_rs1 :
    (after (exec (.csrrs 5 0x300#12 5) ((start .M 0x80#64 0#64).writeX 5 8#64))).map
      (fun t => (t.readX 5, t.mstatusWord)) = some (0x80#64, 0x88#64) := by decide
/-- W23. -/
theorem test_csrrc_mip :
    (after (exec (.csrrc 0 0x344#12 6) { start .M 0#64 2#64 with
      ssip := true, seipSw := true, lines := { Lines.low with seip := true } })).map
      (fun t => (t.ssip, t.seipSw)) = some (false, true) := by decide
/-- W7. -/
theorem test_csrrc_read_only_bits :
    (after (exec (.csrrc 5 0x344#12 6) { start .M 0#64 0x888#64 with lines := ⟨true, true, true, false⟩ })).map
      (fun t => (t.readX 5, t.mipWord)) = some (0x888#64, 0x888#64) := by decide
/-- W11. -/
theorem test_csrrwi_mie :
    (after (exec (.csrrwi 0 0x304#12 31#5) (start .M 0#64 0#64))).map (fun t => t.mieWord) = some 0xA#64 := by decide
/-- W10. -/
theorem test_csrrsi_zero_is_a_read :
    (after (exec (.csrrsi 5 0x300#12 0#5) (start .M 0x1888#64 0#64))).map
      (fun t => (t.readX 5, t.mstatusWord)) = some (0x1888#64, 0x1888#64) := by decide
/-- W12. -/
theorem test_csrrci_mstatus :
    (after (exec (.csrrci 0 0x300#12 8#5) (start .M 0x88#64 0#64))).map (fun t => t.mstatusWord) =
      some 0x80#64 := by decide
/-- W15 with the Interrupt bit set (code 10 is Reserved): bit 63 is stored as written (R41, D30). -/
theorem test_write_mcause_reserved_code :
    ∃ t, csrWrite State.reset 0x800000000000000A#64 .mcause = .next t ∧ t.mcause.getLsbD 63 = true :=
  ⟨_, rfl, (causeWritten_interrupt State.reset _).trans (by decide)⟩
/-- W24: a CSR of a higher mode. -/
theorem test_csr_of_a_higher_mode :
    (after (exec (.csrrw 0 0x300#12 6) { start .S 0xA2#64 0#64 with pc := 0x1000#64, mtvec := 0x80000101#64 })).map
      machineView = some (.M, 0x80000100#64, 0x822#64, 0x1000#64, 0x2#64) := by decide
/-- W17: *sie* writes the delegated enables only. -/
theorem test_sie_writes_delegated_enables :
    (after (csrWrite { State.reset with mie := 0xAAA#64, mideleg := 2#64 } 0#64 .sie)).map (fun t => t.mieWord) =
      some 0xAA8#64 := by decide

/-! ### Traps, selection and the step -/

/-- T11: the last block of the address space. -/
theorem test_target_top_of_memory :
    trapTarget 0xFFFFFFFFFFFFFF81#64 (.interrupt .machineExternal) = .ok 0xFFFFFFFFFFFFFFAC#64 := by decide
/-- T12. -/
theorem test_target_misaligned :
    trapTarget 0x80000041#64 (.exception .breakpoint) = .error .vectoredTrapMisalignedBase := by decide
/-- E5. -/
theorem test_enter_machine :
    (after (enterTrap .machine (.interrupt .machineTimer) (start .S 0xAA#64 0#64))).map
      (fun t => (t.mstatusWord, t.mcause)) = some (0x8A2#64, 0x8000000000000007#64) := by decide
/-- Q4. -/
theorem test_enter_supervisor :
    (after (enterTrap .supervisor (.interrupt .supervisorExternal) (start .S 0xA2#64 0#64))).map
      (fun t => (t.mstatusWord, t.scause)) = some (0x1A0#64, 0x8000000000000009#64) := by decide

/-- A machine with every enable, mode, delegation and pending bit given (wires from bits 3, 7, 11 of `mip`). -/
def interrupts (p : Priv) (mstatus mie mip mideleg : Word) : State :=
  { start p mstatus 0#64 with
    mie := mie, mideleg := mideleg, ssip := mip.getLsbD 1, stip := mip.getLsbD 5, seipSw := mip.getLsbD 9,
    lines := ⟨mip.getLsbD 3, mip.getLsbD 7, mip.getLsbD 11, false⟩ }

/-- S1, S4, S7, S11 and S12. -/
theorem test_select :
    select (interrupts .M 8 0xAAA 0xAAA 0) = some (.machineExternal, .machine) ∧
      select (interrupts .M 8 0xAAA 0x222 0) = some (.supervisorExternal, .machine) ∧
      select (interrupts .M 0 0xAAA 0xAAA 0) = none ∧
      select (interrupts .M 0xA 0x222 0x222 0x222) = none ∧
      select (interrupts .S 0 0xAAA 0x2A2 0x222) = some (.machineTimer, .machine) := by decide
/-- S13 to S16. -/
theorem test_select_supervisor :
    select (interrupts .S 2 0x022 0x022 0x002) = some (.supervisorTimer, .machine) ∧
      select (interrupts .S 2 0x222 0x222 0x222) = some (.supervisorExternal, .supervisor) ∧
      select (interrupts .U 0 0x002 0x002 0x002) = some (.supervisorSoftware, .supervisor) ∧
      select (interrupts .S 0 0x002 0x002 0x002) = none := by decide

/-- A program at `pc`. -/
def withProgram (s : State) (is : List Instr) : State :=
  { s with mem := writeBytes s.mem s.pc (is.flatMap encodeBytes) }

/-- B7: the interrupt goes first. -/
theorem test_interrupt_before_ecall :
    (after (step (withProgram { interrupts .M 8 0x080 0x080 0 with pc := 0x80000008#64 } [.ecall]))).map
      (fun t => (t.mcause, t.mepc)) = some (0x8000000000000007#64, 0x80000008#64) := by decide
/-- A word stored where the next step fetches is the word that runs (Z3: MPP = 3, MPIE = 0, MIE = 0). -/
theorem test_fetch_word_runs :
    (after (step (State.reset.withFetchWord 32 0x00000073))).map (fun t => (t.mcause, t.mepc, t.mstatusWord)) =
      some (0xB#64, 0x80000000#64, 0x1800#64) := by decide
/-- Z1. -/
theorem test_reset :
    State.reset.priv = .M ∧ State.reset.mstatus.mie = false ∧ State.reset.mstatus.sie = false ∧
      State.reset.mideleg = 0#64 ∧ State.reset.medeleg = 0#64 ∧ Memory.wf State.reset.mem = true := by decide

/-! ### Witnesses: for each obligation with hypotheses, values that meet them all, clause by clause -/

/-- The reset machine without supervisor mode. -/
def noSupervisor : State := { start .M 8#64 0#64 with cfg := { Config.default with hasS := false } }

/-- The reset machine in which no `legalize_mtvec` is supplied. -/
def noLegalize : State := { start .M 0#64 3#64 with cfg := { Config.default with legalizeMtvecSupplied := false } }

theorem witness_EncodeOfDecodeIsTheWord : decodeWord 0x344023F3#32 = .ok (.csrrs 7 0x344#12 0) := by decide
theorem witness_WordIsTheInstructionWhenItMatchesTheRow :
    (⟨0x00000073#32, 0xFFFFFFFF#32⟩ : Laws.Row) ∈ tableRows ∧ (⟨0x00007073#32, 0x0000707F#32⟩ : Laws.Row) ∈ tableRows := by
  decide
/-- One word for each name: MRET with `rd` = 1, an ADDI, a 16-bit word. -/
theorem witness_WordsOfNoRowAreRefusedByName :
    (∀ r ∈ tableRows, 0x302000F3#32 &&& r.mask ≠ r.pattern) ∧
      (∀ r ∈ tableRows, 0x00000013#32 &&& r.mask ≠ r.pattern) ∧
      ∀ r ∈ tableRows, 0x00008082#32 &&& r.mask ≠ r.pattern := by simp [tableRows]
/-- With the agenda empty, and with the hart's turn first. -/
theorem witness_StepRunsTheDecodedInstruction :
    (let s := withProgram State.reset [.mret];
      (s.agenda = [] ∧ interruptTaken s true = none ∧ s.pc &&& s.cfg.lowPcBits = 0#64 ∧
        ∃ bs, readBytes4? s.mem s.pc = some bs ∧ decodeBytes bs = .ok (.mret, []))) ∧
    (let s := { withProgram State.reset [.mret] with agenda := [.hart false, .clint true true] };
      (s.agenda = .hart false :: [.clint true true] ∧ interruptTaken s false = none ∧
        s.pc &&& s.cfg.lowPcBits = 0#64 ∧
        ∃ bs, readBytes4? s.mem s.pc = some bs ∧ decodeBytes bs = .ok (.mret, []))) :=
  ⟨⟨rfl, by decide, by decide, _, rfl, by decide⟩, ⟨rfl, by decide, by decide, _, rfl, by decide⟩⟩
/-- An eager hart that the scheduler does not ask, a lazy one that it does, and the empty agenda with a delegated
interrupt. -/
theorem witness_SelectedInterruptGoesBeforeTheInstruction :
    (let s := { interrupts .M 8 0x888 0x888 0 with agenda := [.hart false] };
      s.agenda = .hart false :: [] ∧ s.cfg.eager = true ∧ select s = some (.machineExternal, .machine) ∧
        tvecUsable s.mtvec) ∧
    (let s := { interrupts .M 8 0x888 0x888 0 with
        agenda := [.hart true], mtvec := 0x80000201#64, cfg := { Config.default with eager := false } };
      s.agenda = .hart true :: [] ∧ select s = some (.machineExternal, .machine) ∧ tvecUsable s.mtvec) ∧
    (let s := { interrupts .S 2 0x222 0x222 0x222 with stvec := 0xFFFFFFFFFFFFFF81#64 };
      s.agenda = [] ∧ select s = some (.supervisorExternal, .supervisor) ∧ tvecUsable s.stvec) := by
  unfold tvecUsable; decide
/-- The first byte missing, the last byte missing, and a word that is no instruction. -/
theorem witness_FetchWithoutAnInstructionIsRefused :
    (State.reset.agenda = [] ∧ select State.reset = none ∧ State.reset.pc &&& State.reset.cfg.lowPcBits = 0#64 ∧
      readByte? State.reset.mem (State.reset.pc + BitVec.ofNat 64 0).toNat = none) ∧
    (let s := { State.reset with mem := writeBytes [] State.reset.pc [0x73#8, 0x00#8, 0x20#8] };
      s.agenda = [] ∧ select s = none ∧ s.pc &&& s.cfg.lowPcBits = 0#64 ∧
        readByte? s.mem (s.pc + BitVec.ofNat 64 3).toNat = none) ∧
    (let s := { State.reset with mem := writeBytes [] State.reset.pc [0x13#8, 0x00#8, 0x00#8, 0x00#8] };
      s.agenda = [] ∧ select s = none ∧ s.pc &&& s.cfg.lowPcBits = 0#64 ∧
        readBytes4? s.mem s.pc = some [0x13#8, 0x00#8, 0x00#8, 0x00#8] ∧
        decodeBytes [0x13#8, 0x00#8, 0x00#8, 0x00#8] = .error .notSystem) := by decide
theorem witness_FetchIsLittleEndian :
    let s := withProgram State.reset [.csrrci 31 0x344#12 31#5];
    s.agenda = [] ∧ select s = none ∧ s.pc &&& s.cfg.lowPcBits = 0#64 ∧
      ∀ k < 4, readByte? s.mem (s.pc + BitVec.ofNat 64 k).toNat =
        some ((encode (.csrrci 31 0x344#12 31#5)).extractLsb' (8 * k) 8) := by decide
/-- With IALIGN 32 and 16; not delegated, and delegated. -/
theorem witness_MisalignedPcRaisesCodeZero :
    (let s := { start .U 0#64 0#64 with pc := 0x80000002#64 };
      s.agenda = [] ∧ select s = none ∧ s.pc &&& s.cfg.lowPcBits ≠ 0#64 ∧ ¬ delegatedException s 0 ∧
        tvecUsable s.mtvec) ∧
    (let s := { start .U 0#64 0#64 with
        pc := 0x80000001#64, medeleg := 1#64, cfg := { Config.default with ialign := .bits16 } };
      s.agenda = [] ∧ select s = none ∧ s.pc &&& s.cfg.lowPcBits ≠ 0#64 ∧ delegatedException s 0 ∧
        tvecUsable s.stvec) := by
  unfold tvecUsable delegatedException; decide
theorem witness_AgentsSetOnlyTheirWires :
    { State.reset with agenda := [.clint true false] }.agenda = .clint true false :: [] ∧
      { State.reset with agenda := [.plic false true] }.agenda = .plic false true :: [] := by decide
/-- Direct, and Vectored at the last block. -/
theorem witness_MachineInterruptEntry : tvecUsable 0x80000004#64 ∧ tvecUsable 0xFFFFFFFFFFFFFF81#64 := by
  unfold tvecUsable; decide
theorem witness_SupervisorTrapEntry : tvecUsable State.reset.stvec ∧ tvecUsable 0x80000081#64 := by
  unfold tvecUsable; decide
/-- An illegal instruction in S, not delegated and delegated. -/
theorem witness_ExceptionGoesWhereMedelegSays :
    (¬ delegatedException (start .S 0#64 0#64) (excCode .illegalInstruction) ∧
      tvecUsable (start .S 0#64 0#64).mtvec) ∧
    (delegatedException { start .S 0#64 0#64 with medeleg := 4#64 } (excCode .illegalInstruction) ∧
      tvecUsable (start .S 0#64 0#64).stvec) := by
  unfold tvecUsable delegatedException; decide
theorem witness_TrapTargetsAreSlotsOfTheBlock :
    trapTarget 0x80000201#64 (.interrupt .machineExternal) = .ok 0x8000022C#64 ∧
      (0x80000201#64).getLsbD 0 = true := by decide
theorem witness_MisalignedVectoredBaseIsRefused :
    (0x80000005#64).extractLsb' 0 2 = 1#2 ∧ 0x80000005#64 &&& 0x7C#64 ≠ 0#64 ∧
      (0x80000041#64).extractLsb' 0 2 = 1#2 ∧ 0x80000041#64 &&& 0x7C#64 ≠ 0#64 := by decide
/-- MRET in machine mode, and below it with code 2 delegated and not. -/
theorem witness_MretRestoresTheSavedMode :
    (start .M 0#64 0#64).priv = .M ∧
      (let s := start .U 0#64 0#64; s.priv ≠ .M ∧ ¬ delegatedException s 2 ∧ tvecUsable s.mtvec) ∧
      (let s := { start .S 0#64 0#64 with medeleg := 4#64 };
        s.priv ≠ .M ∧ delegatedException s 2 ∧ tvecUsable s.stvec) := by
  unfold tvecUsable delegatedException; decide
/-- SRET legal in M and in S; illegal without supervisor mode, in U, and with TSR set. -/
theorem witness_SretRestoresTheSavedMode :
    ((start .M 0#64 0#64).cfg.hasS = true ∧ (start .M 0#64 0#64).priv = .M) ∧
      ((start .S 0#64 0#64).cfg.hasS = true ∧ (start .S 0#64 0#64).priv = .S ∧
        (start .S 0#64 0#64).mstatus.hi.getLsbD 9 = false) ∧
      (noSupervisor.cfg.hasS = false ∧ ¬ delegatedException noSupervisor 2 ∧ tvecUsable noSupervisor.mtvec) ∧
      ((start .U 0#64 0#64).priv = .U ∧ ¬ delegatedException (start .U 0#64 0#64) 2 ∧
        tvecUsable (start .U 0#64 0#64).mtvec) ∧
      (let s := start .S 0x400000#64 0#64;
        s.priv = .S ∧ s.mstatus.hi.getLsbD 9 = true ∧ ¬ delegatedException s 2 ∧ tvecUsable s.mtvec) := by
  unfold tvecUsable delegatedException; decide
theorem witness_MretUndoesAMachineTrap :
    (∃ t, enterTrap .machine (.interrupt .machineTimer) (start .S 0xAA#64 0#64) = .next t) ∧
      ∃ t, enterTrap .machine (.exception .breakpoint) (start .M 8#64 0#64) = .next t := ⟨⟨_, rfl⟩, ⟨_, rfl⟩⟩
theorem witness_SretUndoesASupervisorTrap :
    (let s := start .U 2#64 0#64;
      s.priv ≠ .M ∧ s.cfg.hasS = true ∧ s.mstatus.hi.getLsbD 9 = false ∧
        ∃ t, enterTrap .supervisor (.exception .breakpoint) s = .next t) ∧
    (let s := interrupts .S 0 0x080 0x080 0;
      s.priv = .S ∧ pend s .machineTimer = true ∧ mLevel s .machineTimer = true ∧
        ∃ t, enterTrap .machine (.interrupt .machineTimer) s = .next t) :=
  ⟨⟨by decide, by decide, by decide, _, rfl⟩, ⟨by decide, by decide, by decide, _, rfl⟩⟩
/-- ECALL in U delegated and not, in S, and in M. -/
theorem witness_EcallTakesTheCallOfItsMode :
    (let s := { start .U 0#64 0#64 with medeleg := 0x100#64 };
      s.priv = .U ∧ delegatedException s 8 ∧ tvecUsable s.stvec) ∧
    (let s := start .S 0#64 0#64; s.priv = .S ∧ ¬ delegatedException s 9 ∧ tvecUsable s.mtvec) ∧
    (let s := start .M 0#64 0#64;
      s.priv = .M ∧ ¬ delegatedException s (8 + s.priv.code.toNat) ∧ tvecUsable s.mtvec) := by
  unfold tvecUsable delegatedException; decide
theorem witness_EbreakTakesTheBreakpoint :
    (¬ delegatedException (start .M 0#64 0#64) 3 ∧ tvecUsable (start .M 0#64 0#64).mtvec) ∧
    (delegatedException { start .U 0#64 0#64 with medeleg := 8#64 } 3 ∧
      tvecUsable (start .U 0#64 0#64).stvec) := by
  unfold tvecUsable delegatedException; decide
/-- A plain CSR, a legal MODE and a reserved MODE to *mtvec*, a view from S; an access below its mode and an Annex
CSR without supervisor mode. The CSR instructions' other obligations take the same cases. -/
theorem witness_CsrrwSwapsRegisterAndCsr :
    (accessAllowed (start .M 0#64 1#64) .mie ∧ writeMeaningful (start .M 0#64 1#64) .mie 1#64) ∧
    (accessAllowed (start .M 0#64 1#64) .mtvec ∧
      writeMeaningful noLegalize .mtvec ((start .M 0#64 1#64).readX 6)) ∧
    (accessAllowed (start .M 0#64 3#64) .mtvec ∧
      writeMeaningful (start .M 0#64 3#64) .mtvec ((start .M 0#64 3#64).readX 6)) ∧
    (accessAllowed (start .S 0#64 0#64) .sstatus ∧ writeMeaningful (start .S 0#64 0#64) .sstatus 0#64) ∧
    (¬ accessAllowed (start .S 0#64 0#64) .mstatus ∧ ¬ delegatedException (start .S 0#64 0#64) 2 ∧
      tvecUsable (start .S 0#64 0#64).mtvec) ∧
    (¬ accessAllowed noSupervisor .sie ∧ ¬ delegatedException noSupervisor 2 ∧ tvecUsable noSupervisor.mtvec) := by
  unfold accessAllowed writeMeaningful tvecUsable delegatedException
  refine ⟨?_, ?_, ?_, ?_, ?_, ?_⟩ <;> decide
/-- `rs1` not `x0` and `rs1` = `x0`. -/
theorem witness_CsrrsReadsAndSetsBits :
    (let s := start .M 0#64 1#64;
      accessAllowed s .mtvec ∧ (6 : RegIdx) ≠ 0 ∧ writeMeaningful s .mtvec (oldValue s .mtvec ||| s.readX 6)) ∧
    accessAllowed (start .S 0#64 0#64) .sip ∧ ¬ accessAllowed (start .U 0#64 0#64) .sip := by
  unfold accessAllowed writeMeaningful; decide
theorem witness_CsrrcReadsAndClearsBits :
    (let s := { start .M 0#64 2#64 with mtvec := 3#64 };
      accessAllowed s .mtvec ∧ (6 : RegIdx) ≠ 0 ∧ writeMeaningful s .mtvec (oldValue s .mtvec &&& ~~~(s.readX 6))) ∧
    accessAllowed (start .S 0#64 0#64) .sip ∧ ¬ accessAllowed (start .S 0#64 0#64) .mip := by
  unfold accessAllowed writeMeaningful; decide
theorem witness_CsrrwiWritesTheImmediate :
    (accessAllowed (start .M 0#64 0#64) .stvec ∧
      writeMeaningful noLegalize .stvec (BitVec.ofNat 64 (1#5).toNat)) ∧
    (accessAllowed (start .M 0#64 0#64) .stvec ∧
      writeMeaningful (start .M 0#64 0#64) .stvec (BitVec.ofNat 64 (31#5).toNat)) ∧
    ¬ accessAllowed (start .U 0#64 0#64) .stvec := by
  unfold accessAllowed writeMeaningful; decide
theorem witness_CsrrsiReadsAndSetsImmediateBits :
    (let s := start .M 0#64 0#64;
      accessAllowed s .mtvec ∧ 31#5 ≠ 0#5 ∧
        writeMeaningful s .mtvec (oldValue s .mtvec ||| BitVec.ofNat 64 (31#5).toNat)) ∧
    accessAllowed (start .M 0#64 0#64) .mcause ∧ ¬ accessAllowed (start .S 0#64 0#64) .mcause := by
  unfold accessAllowed writeMeaningful; decide
theorem witness_CsrrciReadsAndClearsImmediateBits :
    (let s := { noLegalize with mtvec := 1#64 };
      accessAllowed s .mtvec ∧ 1#5 ≠ 0#5 ∧
        writeMeaningful s .mtvec (oldValue s .mtvec &&& ~~~(BitVec.ofNat 64 (1#5).toNat))) ∧
    accessAllowed (start .S 0#64 0#64) .sepc ∧ ¬ accessAllowed (start .U 0#64 0#64) .sepc := by
  unfold accessAllowed writeMeaningful; decide
theorem witness_CsrNumberOutsideTheSpecIsRefused :
    Instr.wellFormed (.csrrs 10 0x340#12 0) = false ∧ Instr.wellFormed (.csrrwi 0 0x301#12 0#5) = false := by decide
/-- MPP written with an implemented mode; with the reserved code; with a mode the hart lacks. -/
theorem witness_MstatusStoresItsFields :
    (Config.default.implements .S = true ∧ (0x800#64).extractLsb' 11 2 = Priv.code .S) ∧
    ((∀ p, Config.default.implements p = true → (0x1000#64).extractLsb' 11 2 ≠ p.code) ∧
      Config.default.legalizeMppSupplied = false) ∧
    (∀ p, noSupervisor.cfg.implements p = true → (0x800#64).extractLsb' 11 2 ≠ p.code) := by
  refine ⟨by decide, ⟨fun p => ?_, by decide⟩, fun p => ?_⟩ <;> cases p <;> decide
theorem witness_MipStoresOnlyItsSoftwareBits : noSupervisor.cfg.hasS = false ∧ State.reset.cfg.hasS = true := by decide
theorem witness_SetAndClearOnMipNeverLatchTheWire :
    (0xFFFFFFFFFFFFFDFF#64).getLsbD 9 = false ∧
      { State.reset with lines := ⟨false, false, false, true⟩ }.cfg.hasS = true := by decide
theorem witness_CauseStoresTheLegalPairs :
    0x800000000000000B#64 = causeWord (.interrupt .machineExternal) ∧ 0xF#64 = causeWord (.exception .storePageFault) := by
  decide
/-- MODE 1; MODE 2 and 3 without `legalize_mtvec` and with it. -/
theorem witness_TrapVectorStoresALegalMode :
    (0x80000001#64).extractLsb' 0 2 < 2#2 ∧
      (¬ (0x80000002#64).extractLsb' 0 2 < 2#2 ∧ noLegalize.cfg.legalizeMtvecSupplied = false) ∧
      (¬ (0x80000003#64).extractLsb' 0 2 < 2#2 ∧ State.reset.cfg.legalizeMtvecSupplied = true) ∧
      (Instr.csrField? (.csrrs 0 0x305#12 6) = some (csrNumber .mtvec) ∧ accessAllowed noLegalize .mtvec ∧
        valueWritten? (.csrrs 0 0x305#12 6) noLegalize .mtvec = some 3#64 ∧
        ¬ (3#64).extractLsb' 0 2 < 2#2) := by unfold accessAllowed; decide
theorem witness_EpcAndDelegationStoreUnderTheirMasks : State.reset.cfg.hasS = true := by decide
theorem witness_SstatusIsAViewOfMstatus : (start .S 0x19AA#64 0#64).cfg.hasS = true := by decide
/-- A delegated and an undelegated enable. -/
theorem witness_SieIsAViewOfMie :
    let s := { start .S 0#64 0#64 with mideleg := 2#64, mie := 0xAAA#64 };
    s.cfg.hasS = true ∧ (s.mideleg &&& 0x222#64).getLsbD 1 = true ∧ (s.mideleg &&& 0x222#64).getLsbD 5 = false ∧
      s.mideleg.getLsbD 11 = false := by decide
theorem witness_SipIsAViewOfMip :
    { start .S 0#64 0#64 with mideleg := 2#64 }.cfg.hasS = true ∧ (start .S 0#64 0#64).cfg.hasS = true := by decide
theorem witness_SelectionIsTheHighestPriority :
    select (interrupts .M 8 0xAAA 0x2A2 0) = some (.machineTimer, .machine) ∧
      select (interrupts .U 0 0x222 0x222 0x222) = some (.supervisorExternal, .supervisor) := by decide
theorem witness_TakeableByTheBitsSoftwareReads :
    takeable (interrupts .S 2 0x002 0x002 0x002) .supervisorSoftware = true ∧
      takeable (interrupts .U 0 0x800 0x800 0) .machineExternal = true := by decide
theorem witness_TwoLoopsAgreeWithASinglePass :
    csrRead (interrupts .S 2 0xAAA 0xAAA 0) .mideleg = 0#64 ∧
      csrRead (interrupts .S 2 0xAAA 0xAAA 0x222) .mideleg = 0x222#64 := by decide
theorem witness_PartialDelegationTakesTheMachineLevelCause :
    let s := interrupts .S 2 0x022 0x022 0x002;
    s.priv = .S ∧ s.mstatus.sie = true ∧ csrRead s .mideleg = 0x002#64 ∧ csrRead s .mie = 0x022#64 ∧
      csrRead s .mip = 0x022#64 := by decide
theorem witness_MieMasksMachineModeOnly :
    ((interrupts .M 8 0xAAA 0xAAA 0).priv = .M ∧ (interrupts .M 8 0xAAA 0xAAA 0).mstatus.mie = true ∧
      mLevel (interrupts .M 8 0xAAA 0xAAA 0) .machineExternal = true) ∧
    ((interrupts .M 0 0xAAA 0xAAA 0).priv = .M ∧ (interrupts .M 0 0xAAA 0xAAA 0).mstatus.mie = false) ∧
      (interrupts .S 0 0xAAA 0xAAA 0).priv ≠ .M := by decide
theorem witness_DelegatedInterruptsNeverReachMachineMode :
    (let s := interrupts .M 0xA 0x222 0x222 0x222;
      (csrRead s .mideleg).getLsbD (intCode .supervisorTimer) = true ∧ s.priv = .M) ∧
    (csrRead (interrupts .S 2 0xAAA 0xAAA 0x222) .mideleg).getLsbD (intCode .machineTimer) = false := by decide
theorem witness_WithoutSupervisorModeTheAnnexIsGone :
    noSupervisor.cfg.hasS = false ∧
      (Instr.csrField? (.csrrs 5 0x100#12 0) = some (csrNumber .sstatus) ∧ csrIsAnnex .sstatus = true) ∧
      (csrIsAnnex .mie = false ∧ ∃ w, csrWrite noSupervisor (BitVec.allOnes 64) .mie = .next w) ∧
      ¬ delegatedException noSupervisor 2 ∧ tvecUsable noSupervisor.mtvec := by
  refine ⟨by decide, by decide, ⟨by decide, _, rfl⟩, ?_⟩
  unfold tvecUsable delegatedException; decide
/-- A write that sets MIE with a cause pending, one that clears it, a form that writes nothing, and a write of another
CSR. -/
theorem witness_MieWriteTakesEffectAtTheNextBoundary :
    (let s := interrupts .M 0 0x080 0x080 0;
      s.priv = .M ∧ Instr.csrField? (.csrrsi 0 0x300#12 8#5) = some (csrNumber .mstatus) ∧
        (∃ v, valueWritten? (.csrrsi 0 0x300#12 8#5) s .mstatus = some v) ∧
        ∃ t, exec (.csrrsi 0 0x300#12 8#5) s = .next t ∧ t.mstatus.mie = true ∧ pend t .machineTimer = true ∧
          mLevel t .machineTimer = true) ∧
    (let s := interrupts .M 8 0x080 0x080 0;
      s.priv = .M ∧ valueWritten? (.csrrs 5 0x300#12 0) s .mstatus = none ∧
        (∃ t, exec (.csrrwi 0 0x300#12 0#5) s = .next t ∧ t.mstatus.mie = false) ∧
        ∃ t, exec (.csrrwi 0 0x304#12 0#5) s = .next t ∧ t.mstatus.mie = true) :=
  ⟨⟨by decide, by decide, ⟨_, rfl⟩, _, rfl, by decide, by decide, by decide⟩,
    ⟨by decide, by decide, ⟨_, rfl, by decide⟩, _, rfl, by decide⟩⟩
theorem witness_ResetLeavesWhatTheSpecGives :
    { start .U 0xAA#64 7#64 with agenda := [.reset resetChoice] }.agenda = .reset resetChoice :: [] := by decide

/-- A legal state in supervisor mode about to run `csrrw x5, sie, x6`. -/
def runningInS : State :=
  withProgram { start .S 2#64 0x20#64 with mideleg := 0x222#64, medeleg := 0x8#64 } [.csrrw 5 0x104#12 6]

theorem legal_runningInS : Legal runningInS := by constructor <;> decide
theorem witness_EveryStepKeepsALegalState : Legal runningInS ∧ ∃ t, step runningInS = .next t :=
  ⟨legal_runningInS, _, rfl⟩
/-- A trap is taken in this legal state, and no refusal stops it. -/
theorem witness_NoTrapThroughAReservedMode :
    Legal runningInS ∧ ∃ t, enterTrap .supervisor (.exception .breakpoint) runningInS = .next t :=
  ⟨legal_runningInS, _, rfl⟩
theorem witness_NoStepWritesMemoryAndOnlyAgentsMoveWires :
    (∃ t, step runningInS = .next t ∧ t.lines = runningInS.lines) ∧
      ∃ t, step { runningInS with agenda := [.clint true false] } = .next t ∧ t.lines ≠ runningInS.lines :=
  ⟨⟨_, rfl, rfl⟩, ⟨_, rfl, by decide⟩⟩
theorem witness_OnlyTheDestinationRegisterChanges :
    ∃ t, exec (.csrrs 31 0x304#12 0) { start .M 0#64 0#64 with mie := 0x888#64 } = .next t ∧
      t.readX 31 ≠ (start .M 0#64 0#64).readX 31 := ⟨_, rfl, by decide⟩
/-- Rising into M and into S, falling by MRET and by SRET. -/
theorem witness_ModeChangesOnlyByTrapAndReturn :
    (∃ t, exec .ecall (start .S 0#64 0#64) = .next t ∧ (start .S 0#64 0#64).priv.code < t.priv.code) ∧
    (∃ t, exec .ebreak { start .U 0#64 0#64 with medeleg := 8#64 } = .next t ∧ t.priv = .S) ∧
    (∃ t, exec .mret (start .M 0x800#64 0#64) = .next t ∧ t.priv.code < (start .M 0x800#64 0#64).priv.code) ∧
    (∃ t, exec .sret (start .S 0#64 0#64) = .next t ∧ t.priv.code < (start .S 0#64 0#64).priv.code) :=
  ⟨⟨_, rfl, by decide⟩, ⟨_, rfl, rfl⟩, ⟨_, rfl, by decide⟩, ⟨_, rfl, by decide⟩⟩
theorem witness_UserModeCanOnlyTrap :
    (∃ t, exec (.csrrw 5 0x300#12 6) (start .U 0#64 0#64) = .next t ∧ t.priv = .M) ∧
      ∃ t, exec .ebreak { start .U 0#64 0#64 with medeleg := 8#64 } = .next t ∧ t.priv = .S :=
  ⟨⟨_, rfl, rfl⟩, ⟨_, rfl, rfl⟩⟩
theorem witness_OnlyTrapsAndCsrWritesSetMcause :
    (∃ t, enterTrap .machine (.interrupt .machineTimer) State.reset = .next t) ∧
    (∃ t, enterTrap .supervisor (.interrupt .supervisorTimer) State.reset = .next t) ∧
    (∃ t, exec .ecall State.reset = .next t ∧ t.mcause ≠ State.reset.mcause) ∧
    (∃ t, exec (.csrrwi 0 0x342#12 7#5) State.reset = .next t ∧ t.mcause ≠ State.reset.mcause) :=
  ⟨⟨_, rfl⟩, ⟨_, rfl⟩, ⟨_, rfl, by decide⟩, ⟨_, rfl, by decide⟩⟩
/-- A write of *sie* that changes a delegated enable and keeps the others, a write of *sip* where cause 1 is not
delegated, and a trap into S. -/
theorem witness_BelowMachineModeMachineStateIsSafe :
    (∃ t, exec (.csrrw 5 0x104#12 6) runningInS = .next t ∧ t.priv ≠ .M ∧ t.mie ≠ runningInS.mie ∧
      (runningInS.mideleg &&& 0x222#64).getLsbD 7 = false) ∧
    (let s := { runningInS with mideleg := 0x220#64, ssip := true };
      s.priv ≠ .M ∧ s.mideleg.getLsbD 1 = false ∧
        ∃ t, exec (.csrrwi 0 0x144#12 0#5) s = .next t ∧ t.priv ≠ .M) ∧
    (runningInS.priv ≠ .M) ∧ ∃ t, exec .ebreak runningInS = .next t ∧ t.priv ≠ .M :=
  ⟨⟨_, rfl, by decide, by decide, by decide⟩, ⟨by decide, by decide, _, rfl, by decide⟩, by decide,
    ⟨_, rfl, by decide⟩⟩
theorem witness_BelowMachineModeTrapRegistersAreInvisible :
    runningInS.priv ≠ .M ∧ (∃ t, exec (.csrrs 5 0x142#12 0) runningInS = .next t ∧ t.priv ≠ .M) ∧
      ∃ t, exec .ebreak runningInS = .next t ∧ t.priv ≠ .M :=
  ⟨by decide, ⟨_, rfl, by decide⟩, ⟨_, rfl, by decide⟩⟩
/-- Each refusal of the spec's list, the one outside it, and a legal state. -/
theorem witness_InstructionsStopOnlyWhereTheSpecRefuses :
    exec (.csrrs 10 0x340#12 0) State.reset = .refused .csrOutsideSpec ∧
      exec (.csrrw 0 0x305#12 6) noLegalize = .refused .tvecWriteReservedMode ∧
      exec .ecall { State.reset with mtvec := 0x80000041#64 } = .refused .vectoredTrapMisalignedBase ∧
      exec .ecall { State.reset with mtvec := 0x80000002#64 } = .refused .trapThroughReservedMode ∧
      Legal runningInS := ⟨rfl, rfl, rfl, rfl, legal_runningInS⟩
/-- The same cases from the other side: a CSR number outside the spec; a reserved MODE written; an exception due
through *mtvec*, and a delegated one through *stvec*, at the smallest and largest misaligned bases of a block. -/
theorem witness_refusal_cases :
    Instr.wellFormed (.csrrs 10 0x340#12 0) = false ∧
    (noLegalize.cfg.legalizeMtvecSupplied = false ∧ accessAllowed noLegalize .mtvec ∧
      valueWritten? (.csrrw 0 0x305#12 6) noLegalize .mtvec = some 3#64 ∧ ¬ (3#64).extractLsb' 0 2 < 2#2) ∧
    (let s := { start .M 0#64 0#64 with mtvec := 0x80000005#64 };
      exceptionDue .ecall s 11 ∧ exceptionVector s 11 0x80000005#64 ∧ (0x80000005#64).extractLsb' 0 2 = 1#2 ∧
        0x80000005#64 &&& 0x7C#64 ≠ 0#64) ∧
    (let s := { start .U 0#64 0#64 with medeleg := 4#64, stvec := 0x8000007D#64 };
      exceptionDue .mret s 2 ∧ exceptionVector s 2 0x8000007D#64 ∧ (0x8000007D#64).extractLsb' 0 2 = 1#2 ∧
        0x8000007D#64 &&& 0x7C#64 ≠ 0#64) := by
  unfold exceptionVector delegatedException accessAllowed exceptionDue
  refine ⟨?_, ?_, ?_, ?_⟩ <;> decide

end Sys2Proof.Tests
end

section
/-! SUPPORT. Rules the statements about the state rest on: the supervisor views of *mie* and *mip*, and what can
write *mcause*. -/

namespace Sys2Proof.Machine

/-- Bits of `a` replaced by those of `v` under the mask `m`: the write through a view (R54). -/
theorem getLsbD_replaceUnder {n : Nat} (a v m : BitVec n) (k : Nat) :
    ((a &&& ~~~m) ||| (v &&& m)).getLsbD k = if m.getLsbD k then v.getLsbD k else a.getLsbD k := by
  by_cases hk : k < n
  · rw [BitVec.getLsbD_or, BitVec.getLsbD_and, BitVec.getLsbD_and, BitVec.getLsbD_not]
    cases m.getLsbD k <;> simp [hk]
  · simp [BitVec.getLsbD_of_ge _ _ (Nat.le_of_not_lt hk)]

theorem midelegWord_of_hasS {s : State} (h : s.cfg.hasS = true) : s.midelegWord = s.mideleg := by
  simp [State.midelegWord, h]

theorem sViewMask_of_hasS {s : State} (h : s.cfg.hasS = true) :
    s.sViewMask = s.mideleg &&& 0x222#64 := by
  rw [State.sViewMask, midelegWord_of_hasS h]

/-- *sie* in terms of the reads of *mie* and *mideleg* (R54). -/
theorem csrRead_sie (s : State) :
    csrRead s .sie = csrRead s .mie &&& csrRead s .mideleg &&& 0x222#64 :=
  (BitVec.and_assoc _ _ _).symm

/-- *sip* in terms of the reads of *mip* and *mideleg* (R55). -/
theorem csrRead_sip (s : State) :
    csrRead s .sip = csrRead s .mip &&& csrRead s .mideleg &&& 0x222#64 :=
  (BitVec.and_assoc _ _ _).symm

/-- A cause that is not delegated reads 0 in *sie* (R54). -/
theorem csrRead_sie_getLsbD_of_not_delegated {s : State} {k : Nat}
    (h : s.midelegWord.getLsbD k = false) : (csrRead s .sie).getLsbD k = false := by
  simp [csrRead, State.sViewMask, h]

/-- A write of any other CSR leaves *mcause* (R43). -/
theorem csrWrite_mcause_of_ne {s w : State} {v : Word} {c : Csr} (h : csrWrite s v c = .next w)
    (hc : c ≠ .mcause) : w.mcause = s.mcause := by
  cases c with
  | mcause => contradiction
  | mtvec | stvec =>
    simp only [csrWrite] at h
    split at h
    · cases h
      rfl
    · cases h
  | _ =>
    cases h
    rfl

/-- Taking a trap into machine mode, with the level resolved (R174). -/
theorem enterTrap_machine_next {c : Cause} {s t : State} (h : enterTrap .machine c s = .next t) :
    ∃ a, t = s.enterMachine c a := by
  obtain ⟨a, -, ht⟩ := enterTrap_next h
  exact ⟨a, ht⟩

/-- Taking a trap into supervisor mode, with the level resolved (R196). -/
theorem enterTrap_supervisor_next {c : Cause} {s t : State}
    (h : enterTrap .supervisor c s = .next t) : ∃ a, t = s.enterSupervisor c a := by
  obtain ⟨a, -, ht⟩ := enterTrap_next h
  exact ⟨a, ht⟩

/-- Raising an exception enters machine mode or supervisor mode with its cause (R192). -/
theorem raise_next_cases {e : ExcCause} {s t : State} (h : raise e s = .next t) :
    ∃ a, t = s.enterMachine (.exception e) a ∨ t = s.enterSupervisor (.exception e) a := by
  obtain ⟨a, -, ht⟩ := raise_next h
  cases hl : excLevel e s with
  | machine => exact ⟨a, .inl (by rw [ht, hl]; rfl)⟩
  | supervisor => exact ⟨a, .inr (by rw [ht, hl]; rfl)⟩

/-- A mode whose code is at least 3 is machine mode (R21). -/
theorem eq_machine_of_not_code_lt {p : Priv} (h : ¬ p.code < 3#2) : p = .M := by
  cases p with
  | M => rfl
  | U | S => exact absurd (by decide) h

end Sys2Proof.Machine
end

section
/-! PROOFS. *sie* and *sip* are views of *mie* and *mip* (10_state.md R54, R55). -/

namespace Sys2Proof.Proofs

open Sys2Proof.Machine

/-- Settles O38: a write through *sie* replaces the bits of *mie* under the mask `mideleg & 0x222`. -/
theorem sieIsAViewOfMie : Obligations.SieIsAViewOfMie := by
  intro s v hS
  refine ⟨csrRead_sie s, ⟨_, rfl, rfl, ?_, ?_⟩, ?_⟩
  · intro k hk
    rw [getLsbD_replaceUnder, sViewMask_of_hasS hS, if_pos hk]
  · intro k hk
    rw [getLsbD_replaceUnder, sViewMask_of_hasS hS, hk]
    rfl
  · intro k hk
    exact csrRead_sie_getLsbD_of_not_delegated (by rwa [midelegWord_of_hasS hS])

/-- Settles O39: *sip* is read under the view mask, and its write reaches SSIP alone, where delegated. -/
theorem sipIsAViewOfMip : Obligations.SipIsAViewOfMip := by
  intro s v hS
  refine ⟨csrRead_sip s, ?_⟩
  rw [csrWrite, midelegWord_of_hasS hS]

end Sys2Proof.Proofs
end

section
/-! PROOFS. What writes *mcause* (10_state.md R43). -/

namespace Sys2Proof.Proofs

open Sys2Proof.Machine

/-- Settles O57, by the four things an instruction can do (`exec_next`): of them only an exception into machine
mode and a CSR write of *mcause* reach the register, and the number of *mcause* demands machine mode. -/
theorem onlyTrapsAndCsrWritesSetMcause : Obligations.OnlyTrapsAndCsrWritesSetMcause := by
  refine ⟨?_, ?_, ?_⟩
  · intro s t c h
    obtain ⟨a, rfl⟩ := enterTrap_machine_next h
    rfl
  · intro s t c h
    obtain ⟨a, rfl⟩ := enterTrap_supervisor_next h
    exact ⟨rfl, rfl⟩
  · intro i s t h hne
    rcases exec_next h with ⟨e, hr⟩ | ⟨-, -, rfl⟩ | ⟨-, -, -, rfl⟩ | ⟨_, c, w, hi, hc, hw, rfl⟩
    · obtain ⟨a, rfl | rfl⟩ := raise_next_cases hr
      · exact .inl ⟨e, rfl, rfl, rfl⟩
      · exact absurd rfl hne
    · exact absurd rfl hne
    · exact absurd rfl hne
    · rw [State.retire_mcause] at hne
      have hcsr : c = .mcause := by
        by_contra hother
        rcases hw with ⟨v, hw⟩ | rfl
        · exact hne (csrWrite_mcause_of_ne hw hother)
        · exact hne rfl
      subst hcsr
      obtain ⟨-, -, hmode⟩ := csrCheck_allowed hc
      exact .inr ⟨hi, eq_machine_of_not_code_lt hmode⟩

end Sys2Proof.Proofs
end

section
/-! SUPPORT. What decodes, and when: the SYSTEM words under the mask of the CSR rows (30_encoding.md R104, R105),
and a word assembled by shifts. -/

namespace Sys2Proof

/-- The mask of the CSR rows keeps all of the opcode. -/
@[simp] theorem fieldOpcode_and_csrMask (w : InstrWord) :
    fieldOpcode (w &&& 0x0000707F#32) = fieldOpcode w := by
  rw [fieldOpcode, BitVec.extractLsb'_and]
  exact BitVec.and_allOnes

/-- The mask of the CSR rows keeps all of `funct3`. -/
@[simp] theorem fieldFunct3_and_csrMask (w : InstrWord) :
    fieldFunct3 (w &&& 0x0000707F#32) = fieldFunct3 w := by
  rw [fieldFunct3, BitVec.extractLsb'_and]
  exact BitVec.and_allOnes

/-- The mask of the CSR rows keeps the opcode and `funct3` and nothing else, so a word matches under it exactly
when it is a SYSTEM word with the row's `funct3`. -/
theorem and_csrMask_eq_iff (w : InstrWord) (f : BitVec 3) :
    w &&& 0x0000707F#32 = (f.setWidth 32 <<< 12) ||| 0x73#32 ↔
      fieldOpcode w = opcodeSystem ∧ fieldFunct3 w = f := by
  constructor
  · intro h
    rw [← Laws.assemble_and_mask 0 0 0 f] at h
    exact ⟨by simpa using congrArg fieldOpcode h, by simpa using congrArg fieldFunct3 h⟩
  · rintro ⟨hop, rfl⟩
    rw [← assemble_fields hop, Laws.assemble_and_mask, fieldFunct3_assemble]

/-- A SYSTEM word is no 16-bit word (R100). -/
theorem extractLow_of_system {w : InstrWord} (hop : fieldOpcode w = opcodeSystem) :
    w.extractLsb' 0 2 = 0b11#2 := by
  rw [← assemble_fields hop, extractLow_assemble]

/-- Only SYSTEM words decode, and each by `decodeSystem` (R104). -/
theorem decodeWord_eq_ok_iff {w : InstrWord} {i : Instr} :
    decodeWord w = .ok i ↔ fieldOpcode w = opcodeSystem ∧ decodeSystem w = .ok i := by
  by_cases hop : fieldOpcode w = opcodeSystem
  · simp [decodeWord, hop, extractLow_of_system hop]
  · simp only [decodeWord, hop, false_and, iff_false]
    split <;> simp

/-- A word of the `funct3` = 0 group is the one word of its row. -/
theorem decodePrivileged_matches_row {w : InstrWord} {i : Instr} (h : decodePrivileged w = .ok i) :
    w &&& (Laws.rowOf i).mask = (Laws.rowOf i).pattern := by
  unfold decodePrivileged at h
  split_ifs at h with hw hw hw hw <;> cases h <;> subst hw <;> rfl

/-- A SYSTEM word that decodes to an instruction matches that instruction's row: the `funct3` that selects the
branch is the one the row fixes. -/
theorem decodeSystem_matches_row {w : InstrWord} {i : Instr} (hop : fieldOpcode w = opcodeSystem)
    (h : decodeSystem w = .ok i) : w &&& (Laws.rowOf i).mask = (Laws.rowOf i).pattern := by
  unfold decodeSystem at h
  split_ifs at h with h0 hf hf hf hf hf hf
  · exact decodePrivileged_matches_row h
  all_goals
    cases h
    exact (and_csrMask_eq_iff w _).2 ⟨hop, hf⟩

/-- A SYSTEM word whose `funct3` is neither 0 nor 4 decodes to a CSR instruction, of the row of that `funct3`. -/
theorem decodeSystem_of_csrFunct3 {w : InstrWord} (h0 : fieldFunct3 w ≠ 0#3) (h4 : fieldFunct3 w ≠ 4#3) :
    ∃ i, decodeSystem w = .ok i ∧
      Laws.rowOf i = ⟨((fieldFunct3 w).setWidth 32 <<< 12) ||| 0x73#32, 0x0000707F#32⟩ := by
  rw [decodeSystem, if_neg h0]
  split_ifs with h1 h2 h3 h5 h6 h7
  case neg => bv_omega
  all_goals exact ⟨_, rfl, by simp only [*]; rfl⟩

/-- A word that matches a CSR row decodes to an instruction of that row. -/
theorem decodeWord_of_matches_csrRow {w : InstrWord} (f : BitVec 3) (h0 : f ≠ 0#3) (h4 : f ≠ 4#3)
    (hw : w &&& 0x0000707F#32 = (f.setWidth 32 <<< 12) ||| 0x73#32) :
    ∃ i, decodeWord w = .ok i ∧ Laws.rowOf i = ⟨(f.setWidth 32 <<< 12) ||| 0x73#32, 0x0000707F#32⟩ := by
  obtain ⟨hop, rfl⟩ := (and_csrMask_eq_iff w f).1 hw
  obtain ⟨i, hi, hrow⟩ := decodeSystem_of_csrFunct3 h0 h4
  exact ⟨i, decodeWord_eq_ok_iff.2 ⟨hop, hi⟩, hrow⟩

/-- A word that matches a row fixed in all 32 bits is the row's one word, and decodes as it does. -/
theorem decodeWord_of_matches_fixedRow {w p : InstrWord} {i : Instr} (hp : decodeWord p = .ok i)
    (hw : w &&& 0xFFFFFFFF#32 = p) : decodeWord w = .ok i := by
  rwa [show w = p from BitVec.and_allOnes.symm.trans hw]

/-- A word that matches a row of the table decodes to an instruction of that row. -/
theorem decodeWord_of_matches_row {r : Laws.Row} (hr : r ∈ Claims.tableRows) {w : InstrWord}
    (hw : w &&& r.mask = r.pattern) : ∃ i, decodeWord w = .ok i ∧ Laws.rowOf i = r := by
  simp only [Claims.tableRows, List.mem_cons, List.not_mem_nil, or_false] at hr
  rcases hr with rfl | rfl | rfl | rfl | rfl | rfl | rfl | rfl | rfl | rfl
  · exact ⟨.ecall, decodeWord_of_matches_fixedRow (by decide) hw, rfl⟩
  · exact ⟨.ebreak, decodeWord_of_matches_fixedRow (by decide) hw, rfl⟩
  · exact ⟨.sret, decodeWord_of_matches_fixedRow (by decide) hw, rfl⟩
  · exact ⟨.mret, decodeWord_of_matches_fixedRow (by decide) hw, rfl⟩
  · exact decodeWord_of_matches_csrRow 1#3 (by decide) (by decide) hw
  · exact decodeWord_of_matches_csrRow 2#3 (by decide) (by decide) hw
  · exact decodeWord_of_matches_csrRow 3#3 (by decide) (by decide) hw
  · exact decodeWord_of_matches_csrRow 5#3 (by decide) (by decide) hw
  · exact decodeWord_of_matches_csrRow 6#3 (by decide) (by decide) hw
  · exact decodeWord_of_matches_csrRow 7#3 (by decide) (by decide) hw

/-- The fields of the I-type layout, joined by shifts (R105). -/
theorem assemble_eq_shifts (upper : BitVec 12) (mid rd : BitVec 5) (f : BitVec 3) :
    assemble upper mid f rd =
      (upper.setWidth 32 <<< 20) ||| (mid.setWidth 32 <<< 15) ||| (f.setWidth 32 <<< 12) |||
        (rd.setWidth 32 <<< 7) ||| 0x73#32 := by
  apply BitVec.eq_of_getLsbD_eq
  intro k hk
  simp only [assemble, opcodeSystem, BitVec.getLsbD_append, BitVec.getLsbD_or]
  interval_cases k <;> simp

end Sys2Proof
end

section
/-! PROOFS. A word and the rows of the table (30_encoding.md R105). -/

namespace Sys2Proof.Proofs

/-- Settles O3: decoding reads off the opcode and `funct3`, which are what the mask of a CSR row keeps; the other
four rows are one word each. -/
theorem wordIsTheInstructionWhenItMatchesTheRow : Obligations.WordIsTheInstructionWhenItMatchesTheRow := by
  refine ⟨fun r hr w => ⟨?_, decodeWord_of_matches_row hr⟩, fun rd rs1 n u => ?_⟩
  · rintro ⟨i, hi, rfl⟩
    obtain ⟨hop, hsys⟩ := decodeWord_eq_ok_iff.1 hi
    exact decodeSystem_matches_row hop hsys
  · exact ⟨assemble_eq_shifts .., assemble_eq_shifts .., assemble_eq_shifts .., assemble_eq_shifts ..,
      assemble_eq_shifts .., assemble_eq_shifts ..⟩

end Sys2Proof.Proofs
end

section
/-! SUPPORT. What a CSR instruction does, forwards: when the access check allows the access, when the write has a
meaning, what it leaves unchanged, and where its exception goes (41_csr_access.md R132 to R139). -/

namespace Sys2Proof.Machine

open Sys2Proof.Claims

/-- No CSR of R23 is read-only by its number (R107). -/
@[simp] theorem csrIsReadOnly_csrNumber (c : Csr) : csrIsReadOnly (csrNumber c) = false := by
  cases c <;> rfl

@[simp] theorem csrOfNumber_csrNumber (c : Csr) : csrOfNumber? (csrNumber c) = some c :=
  csrOfNumber_eq_some.2 rfl

/-- Where the access is allowed, reading or writing, the check answers the CSR (R133). -/
theorem csrCheck_of_accessAllowed {s : State} {c : Csr} (h : accessAllowed s c) (dw : Bool) :
    csrCheck s (csrNumber c) dw = .allowed c := by
  obtain ⟨hexists, hmode⟩ := h
  have hannex : (csrIsAnnex c && !s.cfg.hasS) = false := by
    cases hc : csrIsAnnex c with
    | false => rfl
    | true => simp [hexists hc]
  simp [csrCheck, hannex, BitVec.not_lt.2 hmode]

/-- Where the access is not allowed, the check answers that it is illegal: the CSR is one of R23 (R133). -/
theorem csrCheck_of_not_accessAllowed {s : State} {c : Csr} (h : ¬ accessAllowed s c) (dw : Bool) :
    csrCheck s (csrNumber c) dw = .illegal := by
  cases hcheck : csrCheck s (csrNumber c) dw with
  | illegal => rfl
  | outside =>
    simp only [csrCheck, csrOfNumber_csrNumber] at hcheck
    split_ifs at hcheck
  | allowed c' =>
    obtain ⟨hnumber, hexists, hmode⟩ := csrCheck_allowed hcheck
    obtain rfl : c = c' := by simpa using csrOfNumber_eq_some.2 hnumber
    exact absurd ⟨hexists, BitVec.not_lt.1 hmode⟩ h

theorem csrAccess_of_accessAllowed {s : State} {c : Csr} (h : accessAllowed s c) (dw : Bool)
    (body : Csr → Result) : csrAccess s (csrNumber c) dw body = body c := by
  simp [csrAccess, csrCheck_of_accessAllowed h]

theorem csrAccess_of_not_accessAllowed {s : State} {c : Csr} (h : ¬ accessAllowed s c) (dw : Bool)
    (body : Csr → Result) : csrAccess s (csrNumber c) dw body = raise .illegalInstruction s := by
  simp [csrAccess, csrCheck_of_not_accessAllowed h]

/-- A trap vector takes every MODE 0 or 1, and every value where `legalize_mtvec` is supplied (R47). -/
theorem tvecWritten_eq_some {cfg : Config} {v : Word} (old : Word)
    (h : v.extractLsb' 0 2 < 2#2 ∨ cfg.legalizeMtvecSupplied = true) :
    ∃ a, tvecWritten? cfg old v = some a := by
  unfold tvecWritten?
  split
  · exact ⟨_, rfl⟩
  · next hmode => exact ⟨_, if_pos (h.resolve_left hmode)⟩

/-- A write that has a meaning completes (R132). -/
theorem csrWrite_of_writeMeaningful {s : State} {c : Csr} {v : Word} (h : writeMeaningful s c v) :
    ∃ w, csrWrite s v c = .next w := by
  cases c with
  | mtvec =>
    obtain ⟨a, ha⟩ := tvecWritten_eq_some s.mtvec (h (.inl rfl))
    exact ⟨{ s with mtvec := a }, by simp [csrWrite, ha]⟩
  | stvec =>
    obtain ⟨a, ha⟩ := tvecWritten_eq_some s.stvec (h (.inr rfl))
    exact ⟨{ s with stvec := a }, by simp [csrWrite, ha]⟩
  | _ => exact ⟨_, rfl⟩

/-- What stands for SEIP in *mip* shows in bit 9 alone (R36). -/
theorem mipWith_getLsbD_of_ne_nine (s : State) (b b' : Bool) {k : Nat} (hk : k < 64) (h9 : k ≠ 9) :
    (s.mipWith b).getLsbD k = (s.mipWith b').getLsbD k := by
  simp only [State.mipWith, BitVec.getLsbD_or, bitAt_getLsbD _ hk, h9, decide_false, Bool.false_and]

/-- The model's `CsrOld` of *mip*: the read value with `seip_sw` alone in bit 9 (R132, R60). -/
theorem mipWith_seipSw_eq (s : State) :
    s.mipWith s.seipSw =
      (s.mipWord &&& ~~~0x200#64) ||| (if s.cfg.hasS && s.seipSw then 0x200#64 else 0#64) := by
  have hbit : (if s.cfg.hasS && s.seipSw then 0x200#64 else 0#64) = bitAt (s.sBit s.seipSw) 9 := by
    rw [State.sBit]
    cases s.cfg.hasS && s.seipSw <;> rfl
  have hmask : 0x200#64 = bitAt true 9 := rfl
  rw [hbit, hmask]
  apply BitVec.eq_of_getLsbD_eq
  intro k hk
  rw [BitVec.getLsbD_or, BitVec.getLsbD_and, BitVec.getLsbD_not, bitAt_getLsbD _ hk, bitAt_getLsbD _ hk]
  by_cases h9 : k = 9
  · subst h9
    simp only [mipWith_getLsbD _ _ hk, decide_true, Bool.true_and, Bool.not_true, Bool.and_false, Bool.false_or]
  · rw [State.mipWord, mipWith_getLsbD_of_ne_nine s _ (s.seipSw || s.lines.seip) hk h9]
    simp [h9, hk]

/-- The model's `CsrOld` is R132's. -/
theorem csrOld_eq_oldValue (s : State) (c : Csr) : csrOld s c = oldValue s c := by
  cases c with
  | mip => exact mipWith_seipSw_eq s
  | sip =>
    rw [csrOld, mipWith_seipSw_eq, State.sViewMask, ← BitVec.and_assoc]
    rfl
  | _ => rfl

/-- A synchronous exception is taken into supervisor mode exactly where *medeleg* sends it there (R192). -/
theorem excLevel_eq_supervisor_iff {e : ExcCause} {s : State} :
    excLevel e s = .supervisor ↔ delegatedException s (excCode e) := by
  cases hS : s.cfg.hasS <;> simp [excLevel, delegatedException, State.medelegWord, hS]

/-- A synchronous exception goes to the base of every usable trap vector, whatever its MODE (R175 to R177, R179). -/
theorem trapTarget_exception_of_usable {v : Word} (e : ExcCause) (h : tvecUsable v) :
    trapTarget v (.exception e) = .ok (v &&& ~~~0x3#64) := by
  rcases h with hdirect | ⟨hvectored, hbase⟩
  · simp [trapTarget, tvecMode, hdirect, tvecBase]
  · have haligned : baseAligned128 (tvecBase v) = true := by
      have : tvecBase v &&& 0x7F#64 = v &&& 0x7C#64 := by
        rw [tvecBase, BitVec.and_assoc]
        rfl
      simp [baseAligned128, this, hbase]
    simp only [trapTarget, tvecMode, hvectored, haligned]
    simp [tvecBase, vectorOffset]

/-- Raising an exception takes it, at the level *medeleg* says, and does nothing else (R179, R192, R196). -/
theorem raise_takesException (e : ExcCause) (s : State) : takesException (raise e s) s (excCode e) := by
  constructor
  · intro hd husable
    have hlvl : excLevel e s = .machine := by
      cases hl : excLevel e s with
      | machine => rfl
      | supervisor => exact absurd (excLevel_eq_supervisor_iff.1 hl) hd
    rw [raise, hlvl]
    exact enterTrap_of_target (trapTarget_exception_of_usable e husable)
  · intro hd husable
    rw [raise, excLevel_eq_supervisor_iff.2 hd]
    exact enterTrap_of_target (trapTarget_exception_of_usable e husable)

/-- A CSR access that is not allowed raises code 2 and does nothing else (R133). -/
theorem csrAccess_takesIllegalInstruction {s : State} {c : Csr} (h : ¬ accessAllowed s c) (dw : Bool)
    (body : Csr → Result) : takesIllegalInstruction (csrAccess s (csrNumber c) dw body) s := by
  rw [csrAccess_of_not_accessAllowed h]
  exact raise_takesException .illegalInstruction s

/-- `w` is `s` but for its CSRs: what a CSR write, or no write, leaves behind. -/
def sameButCsrs (w s : State) : Prop := w.x = s.x ∧ w.pc = s.pc ∧ sameWorld w s

theorem sameButCsrs_refl (s : State) : sameButCsrs s s :=
  ⟨rfl, rfl, rfl, rfl, rfl, rfl, fun _ => rfl⟩

/-- A CSR write leaves all but the CSRs. -/
theorem csrWrite_sameButCsrs {s w : State} {v : Word} {c : Csr} (h : csrWrite s v c = .next w) :
    sameButCsrs w s := by
  rw [csrWrite_next h]
  exact sameButCsrs_refl s

/-- `retire` ends a CSR instruction, whatever it wrote into the CSRs (R134 to R139). -/
theorem retire_retiredAs {s w : State} (h : sameButCsrs w s) (rd : RegIdx) (v : Word) :
    retiredAs s w (w.retire rd v) rd v := by
  obtain ⟨hx, hpc, hworld⟩ := h
  refine ⟨?_, fun r hr => ?_, ?_, ?_, hworld⟩
  · split
    · next h0 =>
      subst h0
      exact readX_zero _
    · next h0 => exact readX_retire_same w v h0
  · rw [readX_retire_other w v hr, readX_congr hx]
  · rw [State.retire_pc, hpc]
  · exact ⟨rfl, rfl, rfl, rfl, rfl, rfl, rfl, rfl, rfl, rfl, rfl, rfl, rfl⟩

/-- A read-and-write instruction writes `v` to the CSR and the CSR's old value to `rd`, or takes the exception of a
refused access (R133, R134, R137). -/
theorem csrReadWrite_meets (s : State) (rd : RegIdx) (c : Csr) (v : Word) :
    (accessAllowed s c → writeMeaningful s c v →
      ∃ w t, csrWrite s v c = .next w ∧ csrReadWrite s rd (csrNumber c) v = .next t ∧
        retiredAs s w t rd (csrRead s c)) ∧
    (¬ accessAllowed s c → takesIllegalInstruction (csrReadWrite s rd (csrNumber c) v) s) := by
  refine ⟨fun hallowed hmeaning => ?_, fun h => csrAccess_takesIllegalInstruction h _ _⟩
  obtain ⟨w, hw⟩ := csrWrite_of_writeMeaningful hmeaning
  refine ⟨w, _, hw, ?_, retire_retiredAs (csrWrite_sameButCsrs hw) rd _⟩
  rw [csrReadWrite, csrAccess_of_accessAllowed hallowed, hw, mapNext]

/-- A read-and-modify instruction writes the CSR's old value to `rd` and, unless its operand names no write (`p`),
`f (CsrOld(csr))` to the CSR, or takes the exception of a refused access (R133, R135, R136, R138, R139). -/
theorem csrReadModify_meets (s : State) (rd : RegIdx) (c : Csr) {dw : Bool} {p : Prop} [Decidable p]
    (hdw : dw = true ↔ ¬ p) (f : Word → Word) :
    (accessAllowed s c → (¬ p → writeMeaningful s c (f (oldValue s c))) →
      ∃ w t, (if p then w = s else csrWrite s (f (oldValue s c)) c = .next w) ∧
        csrReadModify s rd (csrNumber c) dw f = .next t ∧ retiredAs s w t rd (csrRead s c)) ∧
    (¬ accessAllowed s c → takesIllegalInstruction (csrReadModify s rd (csrNumber c) dw f) s) := by
  refine ⟨fun hallowed hmeaning => ?_, fun h => csrAccess_takesIllegalInstruction h _ _⟩
  rw [csrReadModify, csrAccess_of_accessAllowed hallowed, csrOld_eq_oldValue]
  by_cases hp : p
  · rw [if_neg fun h => hdw.1 h hp]
    exact ⟨s, _, by rw [if_pos hp], rfl, retire_retiredAs (sameButCsrs_refl s) rd _⟩
  · obtain ⟨w, hw⟩ := csrWrite_of_writeMeaningful (hmeaning hp)
    rw [if_pos (hdw.2 hp), hw]
    exact ⟨w, _, by rw [if_neg hp], rfl, retire_retiredAs (csrWrite_sameButCsrs hw) rd _⟩

/-- A register set or clear form writes unless `rs1` is `x0` (R133). -/
theorem regFormWrites_iff {rs1 : RegIdx} : regFormWrites rs1 = true ↔ ¬ rs1 = 0 :=
  decide_eq_true_iff.trans (not_congr Fin.val_eq_zero_iff)

/-- An immediate set or clear form writes unless `uimm` is 0 (R133). -/
theorem immFormWrites_iff {u : BitVec 5} : immFormWrites u = true ↔ ¬ u = 0#5 := by
  simp [immFormWrites]

/-- The zero-extended immediate is the immediate's number (R103). -/
theorem uimmWord_eq_ofNat (u : BitVec 5) : uimmWord u = BitVec.ofNat 64 u.toNat :=
  (BitVec.ofNat_toNat 64 u).symm

section
variable (s : State) (rd rs1 : RegIdx) (n : BitVec 12) (u : BitVec 5)

theorem exec_csrrw : exec (.csrrw rd n rs1) s = csrReadWrite s rd n (s.readX rs1) := rfl

theorem exec_csrrs :
    exec (.csrrs rd n rs1) s = csrReadModify s rd n (regFormWrites rs1) (fun old => old ||| s.readX rs1) := rfl

theorem exec_csrrc :
    exec (.csrrc rd n rs1) s = csrReadModify s rd n (regFormWrites rs1) (fun old => old &&& ~~~(s.readX rs1)) :=
  rfl

theorem exec_csrrwi : exec (.csrrwi rd n u) s = csrReadWrite s rd n (BitVec.ofNat 64 u.toNat) := by
  rw [← uimmWord_eq_ofNat]
  rfl

theorem exec_csrrsi :
    exec (.csrrsi rd n u) s =
      csrReadModify s rd n (immFormWrites u) (fun old => old ||| BitVec.ofNat 64 u.toNat) := by
  rw [← uimmWord_eq_ofNat]
  rfl

theorem exec_csrrci :
    exec (.csrrci rd n u) s =
      csrReadModify s rd n (immFormWrites u) (fun old => old &&& ~~~(BitVec.ofNat 64 u.toNat)) := by
  rw [← uimmWord_eq_ofNat]
  rfl

end

end Sys2Proof.Machine
end

section
/-! PROOFS. The six CSR access instructions (41_csr_access.md R134 to R139): each is one of two shared operations,
read-and-write or read-and-modify, on its own operand. -/

namespace Sys2Proof.Proofs

open Sys2Proof.Machine

/-- Settles O23: CSRRW is read-and-write with `x[rs1]`, read before `rd` is written. -/
theorem csrrwSwapsRegisterAndCsr : Obligations.CsrrwSwapsRegisterAndCsr := by
  intro s rd rs1 c
  rw [exec_csrrw]
  exact ⟨rfl, csrReadWrite_meets s rd c _⟩

/-- Settles O24: CSRRS is read-and-modify, setting the bits of `x[rs1]`. -/
theorem csrrsReadsAndSetsBits : Obligations.CsrrsReadsAndSetsBits := by
  intro s rd rs1 c
  rw [exec_csrrs]
  exact ⟨rfl, csrReadModify_meets s rd c regFormWrites_iff (fun old => old ||| s.readX rs1)⟩

/-- Settles O25: CSRRC is read-and-modify, clearing the bits of `x[rs1]`. -/
theorem csrrcReadsAndClearsBits : Obligations.CsrrcReadsAndClearsBits := by
  intro s rd rs1 c
  rw [exec_csrrc]
  exact ⟨rfl, csrReadModify_meets s rd c regFormWrites_iff (fun old => old &&& ~~~(s.readX rs1))⟩

/-- Settles O26: CSRRWI is read-and-write with the zero-extended immediate. -/
theorem csrrwiWritesTheImmediate : Obligations.CsrrwiWritesTheImmediate := by
  intro s rd u c
  rw [exec_csrrwi]
  exact ⟨rfl, csrReadWrite_meets s rd c _⟩

/-- Settles O27: CSRRSI is read-and-modify, setting the bits of the immediate. -/
theorem csrrsiReadsAndSetsImmediateBits : Obligations.CsrrsiReadsAndSetsImmediateBits := by
  intro s rd u c
  rw [exec_csrrsi]
  exact ⟨rfl, csrReadModify_meets s rd c immFormWrites_iff (fun old => old ||| BitVec.ofNat 64 u.toNat)⟩

/-- Settles O28: CSRRCI is read-and-modify, clearing the bits of the immediate. -/
theorem csrrciReadsAndClearsImmediateBits : Obligations.CsrrciReadsAndClearsImmediateBits := by
  intro s rd u c
  rw [exec_csrrci]
  exact ⟨rfl, csrReadModify_meets s rd c immFormWrites_iff (fun old => old &&& ~~~(BitVec.ofNat 64 u.toNat))⟩

end Sys2Proof.Proofs
end

section
/-! SUPPORT. What ECALL and EBREAK raise, and that raising it is all they do (42_env_call_breakpoint.md R150,
R151). -/

namespace Sys2Proof.Machine

open Sys2Proof.Claims

theorem exec_ecall (s : State) : exec .ecall s = raise (ecallCause s.priv) s := rfl

theorem exec_ebreak (s : State) : exec .ebreak s = raise .breakpoint s := rfl

/-- The environment calls' codes are 8 plus the mode's encoding (R150). -/
theorem excCode_ecallCause (p : Priv) : excCode (ecallCause p) = 8 + p.code.toNat := by
  cases p <;> rfl

/-- In machine mode no exception is delegated (R192). -/
theorem not_delegatedException_of_machine {s : State} (h : s.priv = .M) (c : Nat) :
    ¬ delegatedException s c :=
  fun ⟨hbelow, _, _⟩ => hbelow h

/-- ECALL takes its environment call and does nothing else, in every mode (R150). -/
theorem exec_ecall_takesException (s : State) :
    takesException (exec .ecall s) s (8 + s.priv.code.toNat) := by
  rw [exec_ecall, ← excCode_ecallCause]
  exact raise_takesException _ s

end Sys2Proof.Machine
end

section
/-! PROOFS. Environment call and breakpoint (42_env_call_breakpoint.md R150, R151): each raises its exception, and
`raise_takesException` says all that raising does. -/

namespace Sys2Proof.Proofs

open Sys2Proof.Machine

/-- Settles O21: ECALL raises the call whose code is 8 plus the mode's encoding; the clauses for U and S are that sum
in those modes, and in M nothing is delegated. -/
theorem ecallTakesTheCallOfItsMode : Obligations.EcallTakesTheCallOfItsMode := by
  refine ⟨by decide, fun s => ?_⟩
  have hcall := exec_ecall_takesException s
  refine ⟨hcall, fun hU => ?_, fun hS => ?_, fun hM husable => ?_⟩
  · rwa [hU] at hcall
  · rwa [hS] at hcall
  · obtain ⟨hmachine, -⟩ := hcall
    rw [hM] at hmachine
    exact hmachine (not_delegatedException_of_machine hM _) husable

/-- Settles O22: EBREAK raises the breakpoint exception, whose code is 3 whatever the mode. -/
theorem ebreakTakesTheBreakpoint : Obligations.EbreakTakesTheBreakpoint := by
  refine ⟨by decide, fun s => ?_⟩
  rw [exec_ebreak]
  exact raise_takesException .breakpoint s

end Sys2Proof.Proofs
end

section
/-! SUPPORT. Where a trap goes through a usable trap vector, what SRET does after trap entry into supervisor mode,
and when a machine-level cause is selected (60_exceptions.md sections 3 to 5 and 9). -/

namespace Sys2Proof.Machine

open Sys2Proof.Claims

/-- `base` is a multiple of 128 exactly where bits [6:2] of the trap vector are 0 (R46, R177). -/
theorem baseAligned128_tvecBase_iff (v : Word) :
    baseAligned128 (tvecBase v) = true ↔ v &&& 0x7C#64 = 0#64 := by
  rw [baseAligned128, beq_iff_eq, tvecBase, BitVec.and_assoc]
  rfl

/-- Bit 0 of a trap vector is bit 0 of its MODE (R44). -/
theorem tvecMode_getLsbD_zero (v : Word) : (tvecMode v).getLsbD 0 = v.getLsbD 0 := by
  simp [tvecMode]

/-- Every trap through a usable vector has its target: `base`, and in Vectored mode the offset of its cause on top
(R175 to R177, R179). -/
theorem trapTarget_of_usable {v : Word} (c : Cause) (h : tvecUsable v) :
    trapTarget v c = .ok ((v &&& ~~~0x3#64) + if v.getLsbD 0 then vectorOffset c else 0#64) := by
  rw [← tvecMode_getLsbD_zero]
  rcases h with hdirect | ⟨hvectored, hbase⟩
  · have hmode : tvecMode v = 0b00#2 := hdirect
    simp [trapTarget, hmode, tvecBase]
  · have hmode : tvecMode v = 0b01#2 := hvectored
    have haligned : baseAligned128 (tvecBase v) = true := (baseAligned128_tvecBase_iff v).2 hbase
    simp only [trapTarget, hmode, haligned]
    simp [tvecBase]

/-- SRET completes where supervisor mode exists, the mode is not U, and TSR does not trap it in S (R121). -/
theorem exec_sret_of_legal {s : State} (hS : s.cfg.hasS = true) (hU : s.priv ≠ .U)
    (htsr : s.tsr = false) : exec .sret s = .next s.returnSupervisor := by
  simp [exec, execSret, hS, hU, htsr]

/-- The return undoes the entry: SPP and SPIE hold what the mode and SIE were, for a mode that SPP can hold
(R121, R196, R197). -/
theorem returnSupervisor_enterSupervisor {s : State} (hM : s.priv ≠ .M) (c : Cause) (a : Word) :
    (s.enterSupervisor c a).returnSupervisor =
      { s with
        mstatus := { s.mstatus with spie := true, spp := false }
        sepc := s.pc
        scause := causeWord c } := by
  have hmode : (s.enterSupervisor c a).returnSupervisor.priv = s.priv := by
    cases hp : s.priv with
    | M => exact absurd hp hM
    | S | U => simp [hp]
  calc (s.enterSupervisor c a).returnSupervisor
      = { (s.enterSupervisor c a).returnSupervisor with priv := s.priv } := by rw [← hmode]
    _ = _ := rfl

/-- The source's priority list holds every cause (R171). -/
theorem mem_priorityOrder (i : IntCause) : i ∈ priorityOrder := by
  cases i <;> decide

/-- Where some machine-level cause is takeable, a machine-level cause is selected (R173). -/
theorem select_machine_of_takeable {s : State} {i : IntCause} (ht : takeable s i = true)
    (hm : mLevel s i = true) : ∃ j, select s = some (j, .machine) := by
  have hfound : (priorityOrder.find? fun i => takeable s i && mLevel s i).isSome = true :=
    List.find?_isSome.2 ⟨i, mem_priorityOrder i, by simp [ht, hm]⟩
  obtain ⟨j, hj⟩ := Option.isSome_iff_exists.1 hfound
  exact ⟨j, by simp [select, hj]⟩

/-- Machine-level interrupts are globally enabled in supervisor mode, whatever SIE and MIE hold (R168, R169). -/
theorem machineOn_of_supervisor {s : State} (h : s.priv = .S) : machineOn s = true := by
  simp [machineOn, h]

/-- A machine-level cause is takeable exactly where it is pending, enabled, and machine-level interrupts are on
(R169). -/
theorem takeable_of_mLevel {s : State} {i : IntCause} (h : mLevel s i = true) :
    takeable s i = (pend s i && machineOn s) := by
  simp [takeable, h]

end Sys2Proof.Machine
end

section
/-! SUPPORT. A hart without supervisor mode (10_state.md section 11, 60_exceptions.md R199): its Annex CSRs are not
accessible, its supervisor fields read 0, and its three supervisor causes are never pending. -/

namespace Sys2Proof.Machine

open Sys2Proof.Claims

/-- A word whose bit `k` is 0 has nothing in common with the word whose only 1 is bit `k`. -/
theorem and_bitAt_eq_zero {w : Word} {k : Nat} (h : w.getLsbD k = false) : w &&& bitAt true k = 0#64 := by
  apply BitVec.eq_of_getLsbD_eq
  intro j hj
  rw [BitVec.getLsbD_and, bitAt_getLsbD _ hj, BitVec.getLsbD_zero]
  by_cases hjk : j = k
  · rw [hjk, h, Bool.false_and]
  · simp [hjk]

/-- A word with 0 in three bits has nothing in common with the mask of those bits. -/
theorem and_threeBits_eq_zero {w : Word} {i j k : Nat} (hi : w.getLsbD i = false) (hj : w.getLsbD j = false)
    (hk : w.getLsbD k = false) : w &&& (bitAt true i ||| bitAt true j ||| bitAt true k) = 0#64 := by
  rw [BitVec.and_or_distrib_left, BitVec.and_or_distrib_left, and_bitAt_eq_zero hi, and_bitAt_eq_zero hj,
    and_bitAt_eq_zero hk]
  rfl

/-- A CSR instruction whose access is not allowed raises code 2 and does nothing else (R133). -/
theorem exec_csr_takesIllegalInstruction {i : Instr} {s : State} {c : Csr}
    (hi : i.csrField? = some (csrNumber c)) (h : ¬ accessAllowed s c) :
    takesIllegalInstruction (exec i s) s := by
  cases i with
  | ecall | ebreak | sret | mret => cases hi
  | csrrw | csrrs | csrrc | csrrwi | csrrsi | csrrci =>
    cases hi
    exact csrAccess_takesIllegalInstruction h _ _

section
variable {s : State} (h : s.cfg.hasS = false)
include h

/-- An Annex CSR does not exist (R133, R199). -/
theorem not_accessAllowed_of_annex {c : Csr} (hc : csrIsAnnex c = true) : ¬ accessAllowed s c := by
  rintro ⟨hexists, -⟩
  exact absurd (hexists hc) (by simp [h])

theorem sBit_of_no_supervisor (b : Bool) : s.sBit b = false := by
  rw [State.sBit, h, Bool.false_and]

/-- SIE, SPIE and SPP read 0 (R199). -/
theorem csrRead_mstatus_of_no_supervisor : csrRead s .mstatus &&& 0x122#64 = 0#64 := by
  have hbits : 0x122#64 = bitAt true 1 ||| bitAt true 5 ||| bitAt true 8 := by decide
  rw [hbits]
  apply and_threeBits_eq_zero <;>
    exact (mstatusWord_getLsbD_low s (by decide)).trans (sBit_of_no_supervisor h _)

/-- SSIE, STIE and SEIE read 0 (R199). -/
theorem csrRead_mie_of_no_supervisor : csrRead s .mie &&& 0x222#64 = 0#64 := by
  rw [csrRead, State.mieWord, State.mieMask, h, BitVec.and_assoc]
  exact BitVec.and_zero

/-- SSIP, STIP and SEIP read 0 (R199). -/
theorem csrRead_mip_of_no_supervisor : csrRead s .mip &&& 0x222#64 = 0#64 := by
  have hbits : 0x222#64 = bitAt true 1 ||| bitAt true 5 ||| bitAt true 9 := by decide
  rw [hbits]
  apply and_threeBits_eq_zero <;>
    exact (mipWith_getLsbD s _ (by decide)).trans (sBit_of_no_supervisor h _)

/-- SRET is an illegal instruction (R121, R199). -/
theorem exec_sret_of_no_supervisor : exec .sret s = raise .illegalInstruction s := by
  simp [exec, execSret, h]

/-- Nothing is delegated: *mideleg* is taken as 0 (R51, R199). -/
theorem mLevel_of_no_supervisor (i : IntCause) : mLevel s i = true := by
  simp [mLevel, State.midelegWord, h]

/-- The supervisor causes are never pending (R199). -/
theorem pend_of_no_supervisor {i : IntCause}
    (hi : i ∈ [IntCause.supervisorExternal, .supervisorSoftware, .supervisorTimer]) : pend s i = false := by
  have hmip : s.mipWord.getLsbD (intCode i) = false := by
    fin_cases hi <;> exact (mipWith_getLsbD s _ (by decide)).trans (sBit_of_no_supervisor h _)
  rw [pend, hmip, Bool.false_and]

/-- `select()` is its first loop, over the machine causes alone (R173, R199). -/
theorem select_of_no_supervisor :
    select s = ([IntCause.machineExternal, .machineSoftware, .machineTimer].find?
      (fun i => pend s i && machineOn s)).map (fun i => (i, .machine)) := by
  have htake (i : IntCause) : takeable s i = (pend s i && machineOn s) :=
    takeable_of_mLevel (mLevel_of_no_supervisor h i)
  have hmachine : priorityOrder.find? (fun i => takeable s i && mLevel s i) =
      [IntCause.machineExternal, .machineSoftware, .machineTimer].find? (fun i => pend s i && machineOn s) := by
    have hsplit : priorityOrder = [.machineExternal, .machineSoftware, .machineTimer] ++
        [.supervisorExternal, .supervisorSoftware, .supervisorTimer] := rfl
    have hnone : [IntCause.supervisorExternal, .supervisorSoftware, .supervisorTimer].find?
        (fun i => pend s i && machineOn s) = none :=
      List.find?_eq_none.2 fun i hi => by simp [pend_of_no_supervisor h hi]
    simp only [htake, mLevel_of_no_supervisor h, Bool.and_true, hsplit, List.find?_append, hnone, Option.or_none]
  have hsupervisor : priorityOrder.find? (fun i => takeable s i && !mLevel s i) = none :=
    List.find?_eq_none.2 fun i _ => by simp [mLevel_of_no_supervisor h]
  rw [select, hmachine, hsupervisor]
  split <;> simp [*]

end

end Sys2Proof.Machine
end

section
/-! PROOFS. Trap entry at both levels, delegation of exceptions, SRET after a supervisor trap, and the hart without
supervisor mode (60_exceptions.md sections 5 and 9). -/

namespace Sys2Proof.Proofs

open Sys2Proof.Machine

/-- Settles O12: through a usable vector the target exists, and entering machine mode with it is R174. -/
theorem machineInterruptEntry : Obligations.MachineInterruptEntry := by
  intro s i husable
  exact enterTrap_of_target (trapTarget_of_usable (.interrupt i) husable)

/-- Settles O13: through a usable vector the target exists, a slot for an interrupt and `base` for an exception,
and entering supervisor mode with it is R196. -/
theorem supervisorTrapEntry : Obligations.SupervisorTrapEntry := by
  intro s husable
  exact ⟨fun i => enterTrap_of_target (trapTarget_of_usable (.interrupt i) husable),
    fun e => enterTrap_of_target (trapTarget_exception_of_usable e husable)⟩

/-- Settles O14: `raise_takesException` over every exception of the table, whose level `excLevel` chooses as
*medeleg* says (`excLevel_eq_supervisor_iff`). -/
theorem exceptionGoesWhereMedelegSays : Obligations.ExceptionGoesWhereMedelegSays := by
  intro s e
  exact raise_takesException e s

/-- Settles O20: SRET is legal after the entry and undoes it; and in S machine-level interrupts are on whatever SIE
is, while entering machine mode writes none of the supervisor trap registers. -/
theorem sretUndoesASupervisorTrap : Obligations.SretUndoesASupervisorTrap := by
  constructor
  · intro s t c hbelow hS htsr ht
    obtain ⟨a, rfl⟩ := enterTrap_supervisor_next ht
    rw [← returnSupervisor_enterSupervisor hbelow c a]
    exact exec_sret_of_legal hS (by simp) htsr
  · intro s i hpriv
    refine ⟨fun hpend hlevel => ?_, fun t ht => ?_⟩
    · have htake : takeable s i = true := by
        rw [takeable_of_mLevel hlevel, hpend, machineOn_of_supervisor hpriv]
        rfl
      exact ⟨htake, select_machine_of_takeable htake hlevel⟩
    · obtain ⟨a, rfl⟩ := enterTrap_machine_next ht
      exact ⟨hpriv, rfl, rfl, rfl, rfl, rfl⟩

/-- Settles O46: each clause is one rule of the hart without supervisor mode; the supervisor fields read 0 in every
state of such a hart, and a CSR write leaves the parameters, so they read 0 after it too. -/
theorem withoutSupervisorModeTheAnnexIsGone : Obligations.WithoutSupervisorModeTheAnnexIsGone := by
  intro s hS
  refine ⟨fun i c hi hc => exec_csr_takesIllegalInstruction hi (not_accessAllowed_of_annex hS hc),
    csrRead_mstatus_of_no_supervisor hS, csrRead_mie_of_no_supervisor hS, csrRead_mip_of_no_supervisor hS,
    fun v c w _ hw => ?_, ?_, fun i => takeable_of_mLevel (mLevel_of_no_supervisor hS i),
    select_of_no_supervisor hS⟩
  · obtain ⟨-, -, -, hcfg, -⟩ := csrWrite_sameButCsrs hw
    rw [← hcfg] at hS
    exact ⟨csrRead_mstatus_of_no_supervisor hS, csrRead_mie_of_no_supervisor hS,
      csrRead_mip_of_no_supervisor hS⟩
  · rw [exec_sret_of_no_supervisor hS]
    exact raise_takesException .illegalInstruction s

end Sys2Proof.Proofs
end

section
/-! SUPPORT. The decoder on an encoded instruction and the encoder on a decoded word, and the low bits by which the
decoder names its refusals (30_encoding.md R100, R104, R105, R109). -/

namespace Sys2Proof

/-- A CSR instruction's word is decoded by its `funct3`, field by field (R104). -/
theorem decodeWord_assemble (a : BitVec 12) (m d : BitVec 5) (f : BitVec 3) :
    decodeWord (assemble a m f d) = decodeSystem (assemble a m f d) := by
  simp [decodeWord]

/-- The word of an instruction decodes to the instruction (R104, R105). -/
theorem decodeWord_encode (i : Instr) : decodeWord (encode i) = .ok i := by
  cases i with
  | ecall | ebreak | sret | mret => decide
  | csrrw | csrrs | csrrc | csrrwi | csrrsi | csrrci =>
    rw [encode, decodeWord_assemble]
    simp [decodeSystem, fieldRd, fieldRs1, fieldUimm]

/-- A word of the `funct3` = 0 group that decodes is its instruction's word (R108). -/
theorem encode_of_decodePrivileged {w : InstrWord} {i : Instr} (h : decodePrivileged w = .ok i) :
    encode i = w := by
  unfold decodePrivileged at h
  split_ifs at h with hw hw hw hw <;> cases h <;> subst hw <;> rfl

/-- A SYSTEM word that decodes is its instruction's word: no field is dropped (R101, R105). -/
theorem encode_of_decodeSystem {w : InstrWord} {i : Instr} (hop : fieldOpcode w = opcodeSystem)
    (h : decodeSystem w = .ok i) : encode i = w := by
  unfold decodeSystem at h
  split_ifs at h with h0 hf hf hf hf hf hf
  · exact encode_of_decodePrivileged h
  all_goals
    cases h
    calc _ = assemble (fieldCsr w) (w.extractLsb' 15 5) (fieldFunct3 w) (w.extractLsb' 7 5) := by rw [hf]; rfl
      _ = w := assemble_fields hop

/-- The row of every instruction is a row of the table (R105). -/
theorem rowOf_mem_tableRows (i : Instr) : Laws.rowOf i ∈ Claims.tableRows := by
  cases i <;> simp [Laws.rowOf, Claims.tableRows]

/-- Masking the opcode tests the opcode field (R101). -/
theorem and_opcodeMask_eq_iff (w : InstrWord) : w &&& 0x7F#32 = 0x73#32 ↔ fieldOpcode w = opcodeSystem := by
  have hmask : w &&& 0x7F#32 = (fieldOpcode w).setWidth 32 := by
    apply BitVec.eq_of_getLsbD_eq
    intro k hk
    simp only [fieldOpcode, BitVec.getLsbD_and, BitVec.getLsbD_setWidth, BitVec.getLsbD_extractLsb']
    interval_cases k <;> simp
  rw [hmask, opcodeSystem]
  bv_omega

/-- Masking bits `[1:0]` tests for a 16-bit word (R100). -/
theorem and_lowMask_eq_iff (w : InstrWord) : w &&& 0x3#32 = 0x3#32 ↔ w.extractLsb' 0 2 = 0b11#2 := by
  have hmask : w &&& 0x3#32 = (w.extractLsb' 0 2).setWidth 32 := by
    apply BitVec.eq_of_getLsbD_eq
    intro k hk
    simp only [BitVec.getLsbD_and, BitVec.getLsbD_setWidth, BitVec.getLsbD_extractLsb']
    interval_cases k <;> simp
  rw [hmask]
  bv_omega

/-- A SYSTEM word that does not decode is refused as such (R109). -/
theorem decodeSystem_eq_error {w : InstrWord} (h : ∀ i, decodeSystem w ≠ .ok i) :
    decodeSystem w = .error .systemEncoding := by
  cases hd : decodeSystem w with
  | ok i => exact absurd hd (h i)
  | error e =>
    simp only [decodeSystem, decodePrivileged] at hd
    split_ifs at hd <;> cases hd <;> rfl

end Sys2Proof
end

section
/-! PROOFS. Decoding and encoding (30_encoding.md sections 3 and 4). -/

namespace Sys2Proof.Proofs

/-- Settles O1: four little-endian bytes are their word, and the word decodes to its instruction. -/
theorem decodeOfEncodeIsTheInstruction : Obligations.DecodeOfEncodeIsTheInstruction := by
  intro i rest
  rw [encodeBytes, decodeBytes_bytesOfWord, decodeWord_encode]
  rfl

/-- Settles O2: only SYSTEM words decode, and each is assembled from the fields that decoding reads. -/
theorem encodeOfDecodeIsTheWord : Obligations.EncodeOfDecodeIsTheWord := by
  intro w i h
  obtain ⟨hop, hsys⟩ := decodeWord_eq_ok_iff.1 h
  exact encode_of_decodeSystem hop hsys

/-- Settles O4: a SYSTEM word of no row does not decode, since what decodes matches its instruction's row; the other
two names are the decoder's first two tests. -/
theorem wordsOfNoRowAreRefusedByName : Obligations.WordsOfNoRowAreRefusedByName := by
  intro w hrows
  by_cases hlow : w.extractLsb' 0 2 = 0b11#2
  case neg =>
    rw [decodeWord, if_pos hlow, if_pos (mt (and_lowMask_eq_iff w).1 hlow)]
  rw [decodeWord, if_neg (not_not.2 hlow), if_neg (not_not.2 ((and_lowMask_eq_iff w).2 hlow))]
  by_cases hop : fieldOpcode w = opcodeSystem
  case neg =>
    rw [if_pos hop, if_pos (mt (and_opcodeMask_eq_iff w).1 hop)]
  rw [if_neg (not_not.2 hop), if_neg (not_not.2 ((and_opcodeMask_eq_iff w).2 hop))]
  exact decodeSystem_eq_error fun i hi =>
    hrows _ (rowOf_mem_tableRows i) (decodeSystem_matches_row hop hi)

/-- Settles O5: thirteen closed evaluations of the decoder. -/
theorem vectorWordsDecode : Obligations.VectorWordsDecode := by
  unfold Obligations.VectorWordsDecode
  decide

end Sys2Proof.Proofs
end

section
/-! SUPPORT. A step, forwards: whose turn it is, what the hart does at the boundary, and what the fetch finds
(00_scope.md R14, 20_memory.md sections 2 and 5). -/

namespace Sys2Proof.Machine

open Sys2Proof.Claims

/-- With no turn scheduled there is none to take off. -/
theorem popTurn_of_agenda_nil {s : State} (h : s.agenda = []) : s.popTurn = s := by
  cases s
  cases h
  rfl

theorem step_of_agenda_nil {s : State} (h : s.agenda = []) : step s = hartStep true s := by
  rw [step, nextTurn, h]

/-- On the hart's turn the step is the hart's, the turn taken off the agenda (R13, R14). -/
theorem step_of_hartTurn {s : State} {choose : Bool}
    (h : s.agenda = [] ∧ choose = true ∨ ∃ later, s.agenda = .hart choose :: later) :
    step s = hartStep choose s.popTurn := by
  rcases h with ⟨hnil, rfl⟩ | ⟨later, hcons⟩
  · rw [step_of_agenda_nil hnil, popTurn_of_agenda_nil hnil]
  · rw [step, nextTurn, hcons]

/-- An interrupt is taken only where one is selected (R170). -/
theorem interruptTaken_of_select_none {s : State} (h : select s = none) (b : Bool) :
    interruptTaken s b = none := by
  simp [interruptTaken, h]

/-- An eager hart, or one whose scheduler chooses to, takes the selected interrupt (R14 step 2, R170). -/
theorem interruptTaken_of_eager {s : State} {b : Bool} (h : s.cfg.eager = true ∨ b = true) :
    interruptTaken s b = select s := by
  simp [interruptTaken, h]

theorem hartStep_of_taken {s : State} {b : Bool} {i : IntCause} {lvl : Level}
    (h : interruptTaken s b = some (i, lvl)) : hartStep b s = enterTrap lvl (.interrupt i) s := by
  rw [hartStep, h]

/-- Without an interrupt, an aligned `pc` is fetched from (R14 steps 3 and 4). -/
theorem hartStep_of_aligned {s : State} {b : Bool} (h : interruptTaken s b = none)
    (hpc : s.pc &&& s.cfg.lowPcBits = 0#64) : hartStep b s = fetchAndExecute s := by
  simp [hartStep, h, pcAligned, hpc]

/-- Without an interrupt, a misaligned `pc` raises code 0 (R14 step 3, R86). -/
theorem hartStep_of_misaligned {s : State} {b : Bool} (h : interruptTaken s b = none)
    (hpc : s.pc &&& s.cfg.lowPcBits ≠ 0#64) : hartStep b s = raise .instructionAddressMisaligned s := by
  simp [hartStep, h, pcAligned, hpc]

/-- With no turn scheduled, no interrupt selected and `pc` aligned, the step is the fetch (R14). -/
theorem step_eq_fetchAndExecute {s : State} (ha : s.agenda = []) (hsel : select s = none)
    (hpc : s.pc &&& s.cfg.lowPcBits = 0#64) : step s = fetchAndExecute s := by
  rw [step_of_agenda_nil ha, hartStep_of_aligned (interruptTaken_of_select_none hsel _) hpc]

/-- Bytes that decode are executed (R14 steps 4 to 6). -/
theorem fetchAndExecute_of_decodes {s : State} {bs rest : List Byte} {i : Instr}
    (hbs : readBytes4? s.mem s.pc = some bs) (hd : decodeBytes bs = .ok (i, rest)) :
    fetchAndExecute s = exec i s := by
  simp [fetchAndExecute, hbs, hd]

/-- Bytes that do not decode are refused by the decoder's name (R104, R109). -/
theorem fetchAndExecute_of_not_decodes {s : State} {bs : List Byte} {e : DecodeError}
    (hbs : readBytes4? s.mem s.pc = some bs) (hd : decodeBytes bs = .error e) :
    fetchAndExecute s = .refused (refusalOfDecode e) := by
  simp [fetchAndExecute, hbs, hd]

/-- A fetch that reaches outside memory is refused (R95). -/
theorem fetchAndExecute_of_outside {s : State} (h : readBytes4? s.mem s.pc = none) :
    fetchAndExecute s = .refused .fetchOutsideMemory := by
  simp [fetchAndExecute, h]

/-- The four-byte read has no value where one of its bytes has none (R95). -/
theorem readBytes4_eq_none {m : Memory} {a : Word} {k : Nat} (hk : k < 4)
    (h : readByte? m (addrPlus a k) = none) : readBytes4? m a = none := by
  by_contra hne
  obtain ⟨bs, hbs⟩ := Option.ne_none_iff_exists'.1 hne
  obtain ⟨b0, b1, b2, b3, h0, h1, h2, h3, -⟩ := readBytes4_eq_some hbs
  interval_cases k <;> simp_all

/-- Where the byte at `a + k` is bits `[8k+7:8k]` of a word, the four-byte read gives the bytes of that word
(R83, R84). -/
theorem readBytes4_of_littleEndian {m : Memory} {a : Word} {w : InstrWord}
    (h : ∀ k < 4, readByte? m (addrPlus a k) = some (w.extractLsb' (8 * k) 8)) :
    readBytes4? m a = some (bytesOfWord w) := by
  simp [readBytes4?, h, bytesOfWord]

/-- The bytes of an instruction's word decode to it (R84, R104). -/
theorem decodeBytes_bytesOfWord_encode (i : Instr) : decodeBytes (bytesOfWord (encode i)) = .ok (i, []) := by
  rw [← List.append_nil (bytesOfWord _), decodeBytes_bytesOfWord, decodeWord_encode]
  rfl

end Sys2Proof.Machine
end

section
/-! PROOFS. The step of the machine (00_scope.md R13, R14, 20_memory.md sections 2 and 5). -/

namespace Sys2Proof.Proofs

open Sys2Proof.Machine

/-- Settles O6: the hart's turn, no interrupt, an aligned `pc` and bytes that decode leave only `exec`. -/
theorem stepRunsTheDecodedInstruction : Obligations.StepRunsTheDecodedInstruction := by
  intro s choose bs rest i hturn hno hpc hbs hd
  rw [step_of_hartTurn hturn]
  exact (hartStep_of_aligned (s := s.popTurn) hno hpc).trans
    (fetchAndExecute_of_decodes (s := s.popTurn) hbs hd)

/-- Settles O7: the selected interrupt is the one taken, and entry through a usable vector completes. -/
theorem selectedInterruptGoesBeforeTheInstruction :
    Obligations.SelectedInterruptGoesBeforeTheInstruction := by
  intro s choose i hturn heager
  have htaken : interruptTaken s.popTurn choose = select s :=
    interruptTaken_of_eager (s := s.popTurn) heager
  rw [step_of_hartTurn hturn]
  refine ⟨fun hsel husable => ?_, fun hsel husable => ?_⟩
  · rw [hartStep_of_taken (htaken.trans hsel)]
    exact machineInterruptEntry s.popTurn i husable
  · rw [hartStep_of_taken (htaken.trans hsel)]
    obtain ⟨hentry, -⟩ := supervisorTrapEntry s.popTurn husable
    exact hentry i

/-- Settles O8: the fetch finds no four bytes, or four that do not decode. -/
theorem fetchWithoutAnInstructionIsRefused : Obligations.FetchWithoutAnInstructionIsRefused := by
  intro s ha hsel hpc
  rw [step_eq_fetchAndExecute ha hsel hpc]
  refine ⟨?_, fun bs e => fetchAndExecute_of_not_decodes⟩
  rintro ⟨k, hk, hnone⟩
  exact fetchAndExecute_of_outside (readBytes4_eq_none hk hnone)

/-- Settles O9: bytes laid out as the hypothesis says are the bytes of the word, which decode to its instruction. -/
theorem fetchIsLittleEndian : Obligations.FetchIsLittleEndian := by
  intro s i ha hsel hpc hbytes
  rw [step_eq_fetchAndExecute ha hsel hpc]
  exact fetchAndExecute_of_decodes (readBytes4_of_littleEndian hbytes) (decodeBytes_bytesOfWord_encode i)

/-- Settles O10: the hart raises code 0 in place of the fetch, and raising is all it does. -/
theorem misalignedPcRaisesCodeZero : Obligations.MisalignedPcRaisesCodeZero := by
  intro s ha hsel hpc
  rw [step_of_agenda_nil ha, hartStep_of_misaligned (interruptTaken_of_select_none hsel _) hpc]
  exact raise_takesException .instructionAddressMisaligned s

/-- Settles O11: the turn's agent is named by the head of the agenda, which is taken off. -/
theorem agentsSetOnlyTheirWires : Obligations.AgentsSetOnlyTheirWires := by
  intro s a b later
  constructor <;> intro h
  · rw [step, nextTurn, h]
    simp [State.clintTurn, State.popTurn, h]
  · rw [step, nextTurn, h]
    simp [State.plicTurn, State.popTurn, h]

end Sys2Proof.Proofs
end

section
/-! SUPPORT. The addresses traps go to, the traps that are refused, and when the returns are legal
(60_exceptions.md section 5, 40_trap_return.md). -/

namespace Sys2Proof.Machine

open Sys2Proof.Claims

/-- A slot's offset lies in bits [6:2]: it is a multiple of 4 inside the 128-byte block (R176). -/
theorem vectorOffset_and_block (c : Cause) : vectorOffset c &&& 0x7C#64 = vectorOffset c := by
  cases c with
  | interrupt i => cases i <;> rfl
  | exception e => exact BitVec.zero_and

/-- `base` is the value with its low 7 bits cleared, where bits [6:2] are 0 (R46, R177). -/
theorem tvecBase_of_aligned {v : Word} (h : v &&& 0x7C#64 = 0#64) : tvecBase v = v &&& ~~~0x7F#64 := by
  have hmask : ~~~0x3#64 = ~~~0x7F#64 ||| 0x7C#64 := by decide
  rw [tvecBase, hmask, BitVec.and_or_distrib_left, h, BitVec.or_zero]

/-- A slot's offset is outside the bits of an aligned `base`. -/
theorem tvecBase_and_vectorOffset {v : Word} (h : v &&& 0x7C#64 = 0#64) (c : Cause) :
    tvecBase v &&& vectorOffset c = 0#64 := by
  have hmask : (~~~0x7F#64 &&& 0x7C#64 : Word) = 0#64 := by decide
  rw [tvecBase_of_aligned h, ← vectorOffset_and_block, BitVec.and_comm (vectorOffset c), ← BitVec.and_assoc,
    BitVec.and_assoc v, hmask, BitVec.and_zero, BitVec.zero_and]

/-- The slot of a cause: adding the offset never leaves the 128-byte block, so it is OR-ing it (R176). -/
theorem slot_eq_or {v : Word} (h : v &&& 0x7C#64 = 0#64) (c : Cause) :
    tvecBase v + vectorOffset c = (v &&& ~~~0x7F#64) ||| vectorOffset c := by
  rw [BitVec.add_eq_or_of_and_eq_zero _ _ (tvecBase_and_vectorOffset h c), tvecBase_of_aligned h]

/-- Trap targets exist exactly through usable vectors (R175 to R177). -/
theorem trapTarget_ok_iff_usable {v : Word} {c : Cause} : (∃ a, trapTarget v c = .ok a) ↔ tvecUsable v := by
  refine ⟨?_, fun h => ⟨_, trapTarget_of_usable c h⟩⟩
  rintro ⟨a, ha⟩
  rcases trapTarget_ok ha with ⟨hdirect, -⟩ | ⟨hvectored, haligned, -⟩
  · exact .inl hdirect
  · exact .inr ⟨hvectored, (baseAligned128_tvecBase_iff v).1 haligned⟩

/-- In Vectored mode the target is the block with the offset OR-ed in (R176). -/
theorem trapTarget_of_vectored {v : Word} {c : Cause} {a : Word} (h : trapTarget v c = .ok a)
    (hv : v.getLsbD 0 = true) : a = (v &&& ~~~0x7F#64) ||| vectorOffset c := by
  rcases trapTarget_ok h with ⟨hdirect, -⟩ | ⟨-, haligned, rfl⟩
  · rw [← tvecMode_getLsbD_zero, hdirect] at hv
    cases hv
  · exact slot_eq_or ((baseAligned128_tvecBase_iff v).1 haligned) c

/-- Trap targets are multiples of 4 (R175, R176). -/
theorem trapTarget_and_three {v : Word} {c : Cause} {a : Word} (h : trapTarget v c = .ok a) :
    a &&& 0x3#64 = 0#64 := by
  rcases trapTarget_ok h with ⟨-, rfl⟩ | ⟨-, haligned, rfl⟩
  · rw [tvecBase, BitVec.and_assoc]
    exact BitVec.and_zero
  · have hblock : (~~~0x7F#64 &&& 0x3#64 : Word) = 0#64 := by decide
    have hoffset : (0x7C#64 &&& 0x3#64 : Word) = 0#64 := by decide
    rw [slot_eq_or ((baseAligned128_tvecBase_iff v).1 haligned), ← vectorOffset_and_block,
      BitVec.and_or_distrib_right, BitVec.and_assoc, hblock, BitVec.and_assoc, hoffset, BitVec.and_zero,
      BitVec.and_zero, BitVec.or_zero]

/-- A trap is refused through a Vectored base that is not a multiple of 128, and through a reserved MODE, and for no
other reason (R177, D17). -/
theorem trapTarget_error_iff {v : Word} {c : Cause} {r : Refusal} :
    trapTarget v c = .error r ↔
      (r = .vectoredTrapMisalignedBase ∧ v.extractLsb' 0 2 = 1#2 ∧ v &&& 0x7C#64 ≠ 0#64) ∨
        (r = .trapThroughReservedMode ∧ ¬ v.extractLsb' 0 2 < 2#2) := by
  have haligned := baseAligned128_tvecBase_iff v
  unfold trapTarget tvecMode
  split_ifs with hdirect hvectored hbase
  · simp [hdirect]
  · simp [hvectored, haligned.1 hbase]
  · simp [hvectored, mt haligned.2 hbase, eq_comm (a := r)]
  · have hreserved : ¬ v.extractLsb' 0 2 < 2#2 := by bv_omega
    simp [hvectored, hreserved, eq_comm (a := r)]

/-- A trap is refused exactly where it has no target, and for the reason it has none (R177). -/
theorem enterTrap_refused_iff {lvl : Level} {c : Cause} {s : State} {r : Refusal} :
    enterTrap lvl c s = .refused r ↔ trapTarget (s.tvecOf lvl) c = .error r :=
  ⟨enterTrap_refused, fun h => by simp [enterTrap, h]⟩

/-- MRET completes in machine mode (R120). -/
theorem exec_mret_of_machine {s : State} (h : s.priv = .M) : exec .mret s = .next s.returnMachine := by
  simp [exec, execMret, h]

/-- MRET is an illegal instruction below machine mode (R120, D15). -/
theorem exec_mret_of_not_machine {s : State} (h : s.priv ≠ .M) :
    exec .mret s = raise .illegalInstruction s := by
  simp [exec, execMret, h]

/-- SRET is an illegal instruction without supervisor mode, in U, and in S with TSR = 1 (R121;
notes/assumptions/14.md). -/
theorem exec_sret_of_illegal {s : State} (h : s.cfg.hasS = false ∨ s.priv = .U ∨ s.priv = .S ∧ s.tsr = true) :
    exec .sret s = raise .illegalInstruction s := by
  simp only [exec, execSret]
  rcases h with hS | hU | ⟨hpriv, htsr⟩
  · simp [hS]
  · simp [hU]
  · simp [hpriv, htsr]

/-- SRET completes in machine mode whatever TSR is (R121). -/
theorem exec_sret_of_machine {s : State} (hS : s.cfg.hasS = true) (h : s.priv = .M) :
    exec .sret s = .next s.returnSupervisor := by
  simp [exec, execSret, hS, h]

/-- The return undoes the entry: MPP and MPIE hold what the mode and MIE were (R120, R174). -/
theorem returnMachine_enterMachine (s : State) (c : Cause) (a : Word) :
    (s.enterMachine c a).returnMachine =
      { s with
        mstatus := { s.mstatus with mpie := true, mpp := s.cfg.leastMode }
        mepc := s.pc
        mcause := causeWord c } := rfl

end Sys2Proof.Machine
end

section
/-! PROOFS. Trap targets and the trap-return instructions (60_exceptions.md section 5, 40_trap_return.md). -/

namespace Sys2Proof.Proofs

open Sys2Proof.Machine

/-- Settles O15: a target is `base` or a slot of a 128-byte-aligned block, whose offset lies in bits [6:2]. -/
theorem trapTargetsAreSlotsOfTheBlock : Obligations.TrapTargetsAreSlotsOfTheBlock := by
  intro v c
  exact ⟨trapTarget_ok_iff_usable, fun a ha => ⟨trapTarget_and_three ha, trapTarget_of_vectored ha⟩⟩

/-- Settles O16: the target is what a trap is refused for, and the vector is the level's own. -/
theorem misalignedVectoredBaseIsRefused : Obligations.MisalignedVectoredBaseIsRefused := by
  intro s lvl c v hv hmode hbase
  have hvector : s.tvecOf lvl = v := by cases lvl <;> exact hv.symm
  rw [enterTrap_refused_iff, hvector]
  exact trapTarget_error_iff.2 (.inl ⟨rfl, hmode, hbase⟩)

/-- Settles O17: in machine mode the effect is R120's, below it the exception is all that happens. -/
theorem mretRestoresTheSavedMode : Obligations.MretRestoresTheSavedMode := by
  intro s
  refine ⟨exec_mret_of_machine, fun hbelow => ?_⟩
  rw [exec_mret_of_not_machine hbelow]
  exact raise_takesException .illegalInstruction s

/-- Settles O18: where SRET is legal the effect is R121's, elsewhere the exception is all that happens. -/
theorem sretRestoresTheSavedMode : Obligations.SretRestoresTheSavedMode := by
  intro s
  refine ⟨fun hS hlegal => ?_, fun hillegal => ?_⟩
  · rcases hlegal with hM | ⟨hpriv, htsr⟩
    · exact exec_sret_of_machine hS hM
    · exact exec_sret_of_legal hS (by simp [hpriv]) htsr
  · rw [exec_sret_of_illegal hillegal]
    exact raise_takesException .illegalInstruction s

/-- Settles O19: after trap entry the mode is M, so MRET completes, and its effect undoes the entry's. -/
theorem mretUndoesAMachineTrap : Obligations.MretUndoesAMachineTrap := by
  intro s t c ht
  obtain ⟨a, rfl⟩ := enterTrap_machine_next ht
  rw [exec_mret_of_machine rfl, returnMachine_enterMachine]
  rfl

end Sys2Proof.Proofs
end

section
/-! SUPPORT. A CSR instruction in terms of the value it writes, and one on a number outside R23 (41_csr_access.md
R133 to R139, 10_state.md R50). -/

namespace Sys2Proof.Machine

open Sys2Proof.Claims

/-- A number is outside the spec where it is no CSR's number (R50). -/
theorem csrNumberInSpec_eq_false_iff {n : BitVec 12} :
    csrNumberInSpec n = false ↔ ∀ c, csrNumber c ≠ n := by
  rw [csrNumberInSpec, Option.isSome_eq_false_iff, Option.isNone_iff_eq_none, Option.eq_none_iff_forall_ne_some]
  exact forall_congr' fun c => not_congr (csrOfNumber_eq_some.trans eq_comm)

/-- An instruction is ill-formed exactly where it names a number outside the spec (R50). -/
theorem wellFormed_eq_false_iff {i : Instr} :
    i.wellFormed = false ↔ ∃ n, i.csrField? = some n ∧ ∀ c, csrNumber c ≠ n := by
  cases i with
  | ecall | ebreak | sret | mret => simp [Instr.wellFormed, Instr.csrField?]
  | csrrw | csrrs | csrrc | csrrwi | csrrsi | csrrci =>
    simp [Instr.wellFormed, Instr.csrField?, csrNumberInSpec_eq_false_iff]

theorem csrAccess_of_outside {s : State} {n : BitVec 12} (h : ∀ c, csrNumber c ≠ n) (dw : Bool)
    (body : Csr → Result) : csrAccess s n dw body = .refused .csrOutsideSpec := by
  have hnone : csrOfNumber? n = none :=
    Option.eq_none_iff_forall_ne_some.2 fun c hc => h c (csrOfNumber_eq_some.1 hc).symm
  simp [csrAccess, csrCheck, hnone]

/-- A CSR instruction on a number outside the spec is refused (R50, D27). -/
theorem exec_csr_of_outside {i : Instr} {s : State} {n : BitVec 12} (hi : i.csrField? = some n)
    (h : ∀ c, csrNumber c ≠ n) : exec i s = .refused .csrOutsideSpec := by
  cases i with
  | ecall | ebreak | sret | mret => cases hi
  | csrrw | csrrs | csrrc | csrrwi | csrrsi | csrrci =>
    cases hi
    exact csrAccess_of_outside h _ _

/-- A CSR instruction whose access is not allowed raises code 2 (R133). -/
theorem exec_csr_of_not_accessAllowed {i : Instr} {s : State} {c : Csr} (hi : i.csrField? = some (csrNumber c))
    (h : ¬ accessAllowed s c) : exec i s = raise .illegalInstruction s := by
  cases i with
  | ecall | ebreak | sret | mret => cases hi
  | csrrw | csrrs | csrrc | csrrwi | csrrsi | csrrci =>
    cases hi
    exact csrAccess_of_not_accessAllowed h _ _

/-- What a CSR instruction on an allowed CSR does, by the value it writes, if it writes (R134 to R139). -/
def csrEffect (i : Instr) (s : State) (c : Csr) : Option Word → Result
  | some v => mapNext (csrWrite s v c) (fun t => t.retire i.destination (csrRead s c))
  | none => .next (s.retire i.destination (csrRead s c))

/-- A read-and-modify on an allowed CSR, by whether its operand names no write (`p`). -/
theorem csrReadModify_of_accessAllowed {i : Instr} {s : State} {c : Csr} {dw : Bool} {p : Prop} [Decidable p]
    (h : accessAllowed s c) (hdw : dw = true ↔ ¬ p) (f : Word → Word) :
    csrReadModify s i.destination (csrNumber c) dw f =
      csrEffect i s c (if p then none else some (f (oldValue s c))) := by
  rw [csrReadModify, csrAccess_of_accessAllowed h, csrOld_eq_oldValue]
  by_cases hp : p
  · rw [if_pos hp, if_neg fun h => hdw.1 h hp, csrEffect]
  · rw [if_neg hp, if_pos (hdw.2 hp), csrEffect]

/-- A CSR instruction on an allowed CSR reads it into `rd`, writes what `valueWritten?` says, and moves on
(R134 to R139). -/
theorem exec_csr_of_accessAllowed {i : Instr} {s : State} {c : Csr} (hi : i.csrField? = some (csrNumber c))
    (h : accessAllowed s c) : exec i s = csrEffect i s c (valueWritten? i s c) := by
  cases i with
  | ecall | ebreak | sret | mret => cases hi
  | csrrw rd n rs1 =>
    cases hi
    exact csrAccess_of_accessAllowed h _ _
  | csrrwi rd n u =>
    cases hi
    rw [exec_csrrwi]
    exact csrAccess_of_accessAllowed h _ _
  | csrrs rd n rs1 =>
    cases hi
    rw [exec_csrrs]
    exact csrReadModify_of_accessAllowed (i := .csrrs rd _ rs1) h regFormWrites_iff
      (fun old => old ||| s.readX rs1)
  | csrrc rd n rs1 =>
    cases hi
    rw [exec_csrrc]
    exact csrReadModify_of_accessAllowed (i := .csrrc rd _ rs1) h regFormWrites_iff
      (fun old => old &&& ~~~(s.readX rs1))
  | csrrsi rd n u =>
    cases hi
    rw [exec_csrrsi]
    exact csrReadModify_of_accessAllowed (i := .csrrsi rd _ u) h immFormWrites_iff
      (fun old => old ||| BitVec.ofNat 64 u.toNat)
  | csrrci rd n u =>
    cases hi
    rw [exec_csrrci]
    exact csrReadModify_of_accessAllowed (i := .csrrci rd _ u) h immFormWrites_iff
      (fun old => old &&& ~~~(BitVec.ofNat 64 u.toNat))

/-- Going on from a result stops where the result does. -/
theorem mapNext_refused_iff {r : Result} {f : State → State} {e : Refusal} :
    mapNext r f = .refused e ↔ r = .refused e := by
  cases r <;> simp [mapNext]

end Sys2Proof.Machine
end

section
/-! SUPPORT. What the control registers store and show: *mstatus* with its view *sstatus*, and the pending bits of
*mip* (41_csr_access.md R131, R132, 10_state.md R24, R36 to R39). -/

namespace Sys2Proof.Machine

open Sys2Proof.Claims

@[simp] theorem ofCode_code (p : Priv) : Priv.ofCode? p.code = some p := by
  cases p <;> rfl

/-- A code that stands for a mode is that mode's code (R21). -/
theorem code_of_ofCode {b : BitVec 2} {p : Priv} (h : Priv.ofCode? b = some p) : b = p.code := by
  unfold Priv.ofCode? at h
  split_ifs at h with hb hb hb <;> cases h <;> exact hb

/-- MPP stores a mode the hart has (R30). -/
theorem mppWritten_of_implements {cfg : Config} {p : Priv} (h : cfg.implements p = true) (old : Priv) :
    mppWritten cfg old p.code = p := by
  simp [mppWritten, h]

/-- MPP keeps its value where no mode the hart has is written and no `legalize_mpp` is supplied (R30, D34). -/
theorem mppWritten_keeps {cfg : Config} {b : BitVec 2} (h : ∀ p, cfg.implements p = true → b ≠ p.code)
    (hno : cfg.legalizeMppSupplied = false) (old : Priv) : mppWritten cfg old b = old := by
  have hkeep : mppLegalized cfg old b = old := by simp [mppLegalized, hno]
  unfold mppWritten
  split
  · next p hp =>
    rw [if_neg fun himp => h p himp (code_of_ofCode hp), hkeep]
  · exact hkeep

theorem mstatusWord_mpp (s : State) : s.mstatusWord.extractLsb' 11 2 = s.mstatus.mpp.code := by
  apply BitVec.eq_of_getLsbD_eq
  intro k hk
  rw [BitVec.getLsbD_extractLsb', mstatusWord_getLsbD_low s (by omega)]
  interval_cases k <;> rfl

theorem mstatusWord_hi (s : State) : s.mstatusWord.extractLsb' 13 51 = s.mstatus.hi := by
  apply BitVec.eq_of_getLsbD_eq
  intro k hk
  simp [mstatusWord_getLsbD_high, hk]

/-- Gating a bit by `HAS_S` twice is gating it once. -/
theorem sBit_sBit (s : State) (b : Bool) : s.sBit (s.sBit b) = s.sBit b := by
  simp [State.sBit]

theorem sBit_of_hasS {s : State} (h : s.cfg.hasS = true) (b : Bool) : s.sBit b = b := by
  simp [State.sBit, h]

/-- A write of *mstatus* through the mask of *sstatus*, read back (R53). -/
theorem mstatusWord_sstatusWritten {s : State} (hS : s.cfg.hasS = true) (v : Word) :
    State.mstatusWord { s with
        mstatus := { s.mstatus with sie := v.getLsbD 1, spie := v.getLsbD 5, spp := v.getLsbD 8 } } =
      (s.mstatusWord &&& ~~~0x122#64) ||| (v &&& 0x122#64) := by
  apply BitVec.eq_of_getLsbD_eq
  intro k hk
  rw [getLsbD_replaceUnder]
  by_cases hlow : k < 13
  · rw [mstatusWord_getLsbD_low _ hlow, mstatusWord_getLsbD_low _ hlow]
    interval_cases k <;> simp [State.sBit, hS]
  · obtain ⟨j, rfl⟩ := Nat.exists_eq_add_of_le (Nat.le_of_not_lt hlow)
    have hmask : (0x122#64).getLsbD (13 + j) = false := by
      rw [show 0x122#64 = (0x122#13).setWidth 64 from rfl, BitVec.getLsbD_setWidth,
        BitVec.getLsbD_of_ge _ _ (by omega), Bool.and_false]
    rw [mstatusWord_getLsbD_high, mstatusWord_getLsbD_high, hmask]
    rfl

/-- The low 13 bits of a word whose upper bits are anything. -/
theorem append_and_lowMask (hi : BitVec 51) (w : Word) :
    (hi ++ w.extractLsb' 0 13) &&& 0x1FFF#64 = w &&& 0x1FFF#64 := by
  apply BitVec.eq_of_getLsbD_eq
  intro k hk
  rw [BitVec.getLsbD_and, BitVec.getLsbD_and, BitVec.getLsbD_append, BitVec.getLsbD_extractLsb']
  by_cases hlow : k < 13
  · simp [hlow]
  · have hmask : (0x1FFF#64).getLsbD k = false := by
      rw [show 0x1FFF#64 = (0x1FFF#13).setWidth 64 from rfl, BitVec.getLsbD_setWidth,
        BitVec.getLsbD_of_ge _ _ (by omega), Bool.and_false]
    simp [hmask]

/-- One bit of a word, in its place. -/
theorem and_bitAt (w : Word) {k : Nat} : w &&& bitAt true k = bitAt (w.getLsbD k) k := by
  apply BitVec.eq_of_getLsbD_eq
  intro j hj
  rw [BitVec.getLsbD_and, bitAt_getLsbD _ hj, bitAt_getLsbD _ hj]
  by_cases h : j = k <;> simp [h]

theorem bitAt_false (k : Nat) : bitAt false k = 0#64 := by simp [bitAt]

theorem bitAt_or (a b : Bool) (k : Nat) : bitAt (a || b) k = bitAt a k ||| bitAt b k := by
  cases a <;> cases b <;> simp [bitAt_false]

/-- A bit in its place, written as a choice. -/
theorem bitAt_eq_ite (b : Bool) (k : Nat) : bitAt b k = if b then bitAt true k else 0#64 := by
  cases b
  · exact bitAt_false k
  · rfl

/-- The three wires in their places (R37). -/
theorem wireBits_eq (s : State) :
    wireBits s = bitAt s.lines.msip 3 ||| bitAt s.lines.mtip 7 ||| bitAt s.lines.meip 11 := by
  rw [bitAt_eq_ite s.lines.msip, bitAt_eq_ite s.lines.mtip, bitAt_eq_ite s.lines.meip]
  rfl

/-- *mip* with supervisor mode: the wires and the three supervisor bits (R131). -/
theorem mipWord_of_hasS {s : State} (h : s.cfg.hasS = true) :
    s.mipWord = wireBits s ||| (bitAt s.ssip 1 ||| bitAt s.stip 5 ||| bitAt (s.seipSw || s.lines.seip) 9) := by
  simp only [State.mipWord, State.mipWith, sBit_of_hasS h, wireBits_eq]
  ac_rfl

/-- *mip* without supervisor mode: the wires alone (R131, R199). -/
theorem mipWord_of_no_supervisor {s : State} (h : s.cfg.hasS = false) : s.mipWord = wireBits s := by
  simp [State.mipWord, State.mipWith, sBit_of_no_supervisor h, wireBits_eq, bitAt_false]

/-- The three supervisor bits of a word. -/
theorem and_supervisorBits (v : Word) :
    v &&& 0x222#64 = bitAt (v.getLsbD 1) 1 ||| bitAt (v.getLsbD 5) 5 ||| bitAt (v.getLsbD 9) 9 := by
  rw [← and_bitAt, ← and_bitAt, ← and_bitAt, ← BitVec.and_or_distrib_left, ← BitVec.and_or_distrib_left]
  rfl

/-- `s` with the three software bits of *mip* taken from `v`: what a write of *mip* leaves (R132). -/
def mipWritten (s : State) (v : Word) : State :=
  { s with ssip := v.getLsbD 1, stip := v.getLsbD 5, seipSw := v.getLsbD 9 }

theorem csrWrite_mip_of_hasS {s : State} (h : s.cfg.hasS = true) (v : Word) :
    csrWrite s v .mip = .next (mipWritten s v) := by
  simp [csrWrite, mipWritten, h]

/-- *mip* after a write of it: the wires, the bits written, and `seip_line` over bit 9 (R60). -/
theorem mipWord_mipWritten {s : State} (h : s.cfg.hasS = true) (v : Word) :
    (mipWritten s v).mipWord =
      wireBits s ||| (bitAt (v.getLsbD 1) 1 ||| bitAt (v.getLsbD 5) 5 ||| bitAt (v.getLsbD 9 || s.lines.seip) 9) :=
  mipWord_of_hasS (s := mipWritten s v) h

/-- A hart without supervisor mode has no bit of *mip* to write (R199). -/
theorem csrWrite_mip_of_no_supervisor {s : State} (h : s.cfg.hasS = false) (v : Word) :
    csrWrite s v .mip = .next s := by
  simp [csrWrite, h]

/-- The bits of `CsrOld(mip)` that a write stores (R132, R60). -/
theorem oldValue_mip_stored {s : State} (h : s.cfg.hasS = true) :
    (oldValue s .mip).getLsbD 1 = s.ssip ∧ (oldValue s .mip).getLsbD 5 = s.stip ∧
      (oldValue s .mip).getLsbD 9 = s.seipSw := by
  rw [← csrOld_eq_oldValue, csrOld, mipWith_getLsbD _ _ (by decide), mipWith_getLsbD _ _ (by decide),
    mipWith_getLsbD _ _ (by decide)]
  exact ⟨sBit_of_hasS h _, sBit_of_hasS h _, sBit_of_hasS h _⟩

/-- The bits of *mip* that set and clear can change where the mask has no bit 9. -/
theorem and_softwareBits (m : Word) : m &&& 0x22#64 = bitAt (m.getLsbD 1) 1 ||| bitAt (m.getLsbD 5) 5 := by
  rw [← and_bitAt, ← and_bitAt, ← BitVec.and_or_distrib_left]
  rfl

/-- Setting bits of *mip* other than bit 9: `seip_sw` stays, and the read has SSIP and STIP set (R60, D24). -/
theorem mip_after_set {s : State} {m : Word} (h9 : m.getLsbD 9 = false) (hS : s.cfg.hasS = true) :
    (mipWritten s (oldValue s .mip ||| m)).seipSw = s.seipSw ∧
      (mipWritten s (oldValue s .mip ||| m)).mipWord = s.mipWord ||| (m &&& 0x22#64) := by
  obtain ⟨hold1, hold5, hold9⟩ := oldValue_mip_stored hS
  have hkeep : (oldValue s .mip ||| m).getLsbD 9 = s.seipSw := by rw [BitVec.getLsbD_or, hold9, h9, Bool.or_false]
  refine ⟨hkeep, ?_⟩
  rw [mipWord_mipWritten hS, mipWord_of_hasS hS, and_softwareBits, hkeep, BitVec.getLsbD_or, BitVec.getLsbD_or, hold1,
    hold5, bitAt_or s.ssip, bitAt_or s.stip]
  ac_rfl

/-- Clearing bits of *mip* other than bit 9: `seip_sw` stays, and the read has SSIP and STIP cleared (R60, D24). -/
theorem mip_after_clear {s : State} {m : Word} (h9 : m.getLsbD 9 = false) (hS : s.cfg.hasS = true) :
    (mipWritten s (oldValue s .mip &&& ~~~m)).seipSw = s.seipSw ∧
      (mipWritten s (oldValue s .mip &&& ~~~m)).mipWord = s.mipWord &&& ~~~(m &&& 0x22#64) := by
  obtain ⟨hold1, hold5, hold9⟩ := oldValue_mip_stored hS
  have hbit {k : Nat} (hk : k < 64) :
      (oldValue s .mip &&& ~~~m).getLsbD k = ((oldValue s .mip).getLsbD k && !m.getLsbD k) := by
    rw [BitVec.getLsbD_and, BitVec.getLsbD_not, decide_eq_true hk, Bool.true_and]
  have hkeep : (oldValue s .mip &&& ~~~m).getLsbD 9 = s.seipSw := by
    rw [hbit (by decide), hold9, h9, Bool.not_false, Bool.and_true]
  refine ⟨hkeep, ?_⟩
  rw [mipWord_mipWritten hS, and_softwareBits, hkeep, hbit (by decide), hbit (by decide), hold1, hold5,
    mipWord_of_hasS hS, wireBits_eq]
  apply BitVec.eq_of_getLsbD_eq
  intro k hk
  simp only [BitVec.getLsbD_and, BitVec.getLsbD_or, BitVec.getLsbD_not, bitAt_getLsbD _ hk]
  by_cases h1 : k = 1
  · simp [h1]
  · by_cases h5 : k = 5 <;> simp [h1, h5, hk]

end Sys2Proof.Machine
end

section
/-! SUPPORT. What the trap registers store: the legal causes, the trap vectors under their mask, the aligned
addresses (10_state.md R42, R45 to R49, R51, R52). -/

namespace Sys2Proof.Machine

open Sys2Proof.Claims

/-- A value as its Interrupt bit and its code (R40). -/
theorem toNat_eq_interrupt_add_code (v : Word) :
    v.toNat = (if v.getLsbD 63 then 2 ^ 63 else 0) + (v.extractLsb' 0 63).toNat := by
  have hbit : v.getLsbD 63 = decide (2 ^ 63 ≤ v.toNat) := BitVec.msb_eq_decide v
  have hcode : (v.extractLsb' 0 63).toNat = v.toNat % 2 ^ 63 := by simp
  have hlt := v.isLt
  rw [hbit, hcode]
  split <;> simp_all <;> omega

theorem toNat_causeWord_interrupt (i : IntCause) : (causeWord (.interrupt i)).toNat = 2 ^ 63 + intCode i := by
  cases i <;> rfl

theorem toNat_causeWord_exception (e : ExcCause) : (causeWord (.exception e)).toNat = excCode e := by
  cases e <;> rfl

/-- The interrupt codes of the source's table (R182). -/
theorem exists_intCode_iff {n : Nat} : n ∈ [1, 3, 5, 7, 9, 11] ↔ ∃ i, intCode i = n := by
  constructor
  · intro h
    fin_cases h
    exacts [⟨.supervisorSoftware, rfl⟩, ⟨.machineSoftware, rfl⟩, ⟨.supervisorTimer, rfl⟩, ⟨.machineTimer, rfl⟩,
      ⟨.supervisorExternal, rfl⟩, ⟨.machineExternal, rfl⟩]
  · rintro ⟨i, rfl⟩
    cases i <;> decide

/-- The exception codes of the source's table (R181). -/
theorem exists_excCode_iff {n : Nat} :
    n ∈ [0, 1, 2, 3, 4, 5, 6, 7, 8, 9, 11, 12, 13, 15] ↔ ∃ e, excCode e = n := by
  constructor
  · intro h
    fin_cases h
    exacts [⟨.instructionAddressMisaligned, rfl⟩, ⟨.instructionAccessFault, rfl⟩, ⟨.illegalInstruction, rfl⟩,
      ⟨.breakpoint, rfl⟩, ⟨.loadAddressMisaligned, rfl⟩, ⟨.loadAccessFault, rfl⟩, ⟨.storeAddressMisaligned, rfl⟩,
      ⟨.storeAccessFault, rfl⟩, ⟨.environmentCallFromU, rfl⟩, ⟨.environmentCallFromS, rfl⟩,
      ⟨.environmentCallFromM, rfl⟩, ⟨.instructionPageFault, rfl⟩, ⟨.loadPageFault, rfl⟩, ⟨.storePageFault, rfl⟩]
  · rintro ⟨e, rfl⟩
    cases e <;> decide

/-- The legal pairs are the causes of the two tables (R42, R181, R182). -/
theorem causeLegal_iff {v : Word} : causeLegal v = true ↔ ∃ c, v = causeWord c := by
  constructor
  · intro h
    have hsplit := toNat_eq_interrupt_add_code v
    unfold causeLegal at h
    split_ifs at h with hbit
    · obtain ⟨i, hi⟩ := exists_intCode_iff.1 (of_decide_eq_true h)
      refine ⟨.interrupt i, BitVec.eq_of_toNat_eq ?_⟩
      rw [hsplit, if_pos hbit, toNat_causeWord_interrupt, hi]
    · obtain ⟨e, he⟩ := exists_excCode_iff.1 (of_decide_eq_true h)
      refine ⟨.exception e, BitVec.eq_of_toNat_eq ?_⟩
      rw [hsplit, if_neg hbit, toNat_causeWord_exception, he, Nat.zero_add]
  · rintro ⟨c, rfl⟩
    cases c with
    | interrupt i => cases i <;> decide
    | exception e => cases e <;> decide

/-- A trap vector's stored value: the writable BASE bits over MODE (R44, R47). -/
theorem maskedBase_or_mode (cfg : Config) (v : Word) (m : BitVec 2) :
    (v &&& ~~~0x3#64 &&& cfg.baseMaskWord) ||| m.setWidth 64 = (v.extractLsb' 2 62 &&& cfg.mtvecBaseMask) ++ m := by
  apply BitVec.eq_of_getLsbD_eq
  intro k hk
  have hthree : (0x3#64).getLsbD k = decide (k < 2) := by
    rw [show 0x3#64 = (BitVec.allOnes 2).setWidth 64 from rfl, BitVec.getLsbD_setWidth, BitVec.getLsbD_allOnes]
    simp [hk]
  simp only [Config.baseMaskWord, BitVec.getLsbD_or, BitVec.getLsbD_and, BitVec.getLsbD_not, BitVec.getLsbD_append,
    BitVec.getLsbD_setWidth, BitVec.getLsbD_extractLsb', hthree, hk]
  by_cases hmode : k < 2
  · simp [hmode]
  · have hm : m.getLsbD k = false := BitVec.getLsbD_of_ge _ _ (by omega)
    simp [hmode, hm, show k - 2 < 62 by omega, show 2 + (k - 2) = k by omega]

@[simp] theorem extractMode_append (b : BitVec 62) (m : BitVec 2) : (b ++ m).extractLsb' 0 2 = m := by
  apply BitVec.eq_of_getLsbD_eq
  intro k hk
  rw [BitVec.getLsbD_extractLsb', BitVec.getLsbD_append]
  simp [hk]

@[simp] theorem extractBase_append (b : BitVec 62) (m : BitVec 2) : (b ++ m).extractLsb' 2 62 = b := by
  apply BitVec.eq_of_getLsbD_eq
  intro k hk
  rw [BitVec.getLsbD_extractLsb', BitVec.getLsbD_append]
  simp [hk, show ¬ 2 + k < 2 by omega]

/-- MODE 0 or 1 is stored with the writable BASE bits (R47). -/
theorem tvecWritten_of_legalMode {v : Word} (h : v.extractLsb' 0 2 < 2#2) (cfg : Config) (old : Word) :
    tvecWritten? cfg old v = some ((v.extractLsb' 2 62 &&& cfg.mtvecBaseMask) ++ v.extractLsb' 0 2) := by
  rw [tvecWritten?, if_pos h, maskedBase_or_mode]

/-- A reserved MODE has no meaning without `legalize_mtvec` (R47). -/
theorem tvecWritten_of_reservedMode {v : Word} (h : ¬ v.extractLsb' 0 2 < 2#2) {cfg : Config}
    (hno : cfg.legalizeMtvecSupplied = false) (old : Word) : tvecWritten? cfg old v = none := by
  simp [tvecWritten?, h, hno]

/-- A value made legal: the writable BASE bits over a MODE of 0 or 1 (R45). -/
theorem legalTvec_eq_append (cfg : Config) (v : Word) :
    legalTvec cfg v = (v.extractLsb' 2 62 &&& cfg.mtvecBaseMask) ++ (v.extractLsb' 0 2 &&& 1#2) := by
  rw [legalTvec, ← maskedBase_or_mode]
  congr 1
  apply BitVec.eq_of_getLsbD_eq
  intro k hk
  rw [show 0x1#64 = bitAt true 0 from rfl, show 1#2 = (BitVec.ofBool true).setWidth 2 from rfl, BitVec.getLsbD_and,
    bitAt_getLsbD _ hk, BitVec.getLsbD_setWidth, BitVec.getLsbD_and]
  by_cases h0 : k = 0
  · subst h0
    simp
  · have hone : (BitVec.setWidth 2 (BitVec.ofBool true)).getLsbD k = false := by
      rw [BitVec.getLsbD_setWidth, BitVec.getLsbD_of_ge (BitVec.ofBool true) _ (by omega), Bool.and_false]
    simp only [h0, hone, decide_false, Bool.false_and, Bool.and_false]

/-- The low bit of a MODE is a MODE of 0 or 1. -/
theorem and_one_lt_two (m : BitVec 2) : m &&& 1#2 < 2#2 := by
  revert m
  decide

/-- Whatever a trap vector takes, its MODE is 0 or 1 (R45, R47). -/
theorem tvecWritten_mode {cfg : Config} {old v a : Word} (h : tvecWritten? cfg old v = some a) :
    a.extractLsb' 0 2 < 2#2 := by
  unfold tvecWritten? at h
  split_ifs at h with hmode hsupplied <;> cases h
  · rwa [maskedBase_or_mode, extractMode_append]
  · rw [legalTvec_eq_append, extractMode_append]
    exact and_one_lt_two _

/-- A write of a trap vector that has a meaning stores it and leaves the other one (R47, R56). -/
theorem csrWrite_tvec_of_some {s : State} {v a : Word} {c : Csr} (hc : c = .mtvec ∨ c = .stvec)
    (h : tvecWritten? s.cfg (csrRead s c) v = some a) :
    ∃ w, csrWrite s v c = .next w ∧ w = { s with mtvec := w.mtvec, stvec := w.stvec } ∧
      (c = .mtvec → w.stvec = s.stvec) ∧ (c = .stvec → w.mtvec = s.mtvec) ∧ csrRead w c = a := by
  rcases hc with rfl | rfl
  · have hm : tvecWritten? s.cfg s.mtvec v = some a := h
    exact ⟨{ s with mtvec := a }, by simp [csrWrite, hm], rfl, fun _ => rfl, nofun, rfl⟩
  · have hs : tvecWritten? s.cfg s.stvec v = some a := h
    exact ⟨{ s with stvec := a }, by simp [csrWrite, hs], rfl, nofun, fun _ => rfl, rfl⟩

/-- A write of a trap vector that has no meaning is refused (R47, R56). -/
theorem csrWrite_tvec_of_none {s : State} {v : Word} {c : Csr} (hc : c = .mtvec ∨ c = .stvec)
    (h : tvecWritten? s.cfg (csrRead s c) v = none) : csrWrite s v c = .refused .tvecWriteReservedMode := by
  rcases hc with rfl | rfl
  · have hm : tvecWritten? s.cfg s.mtvec v = none := h
    simp [csrWrite, hm]
  · have hs : tvecWritten? s.cfg s.stvec v = none := h
    simp [csrWrite, hs]

/-- An address without the bits below IALIGN (R49). -/
theorem and_not_lowPcBits (cfg : Config) (v : Word) :
    v &&& ~~~cfg.lowPcBits = match cfg.ialign with | .bits16 => v &&& ~~~0x1#64 | .bits32 => v &&& ~~~0x3#64 := by
  unfold Config.lowPcBits
  cases cfg.ialign <;> rfl

end Sys2Proof.Machine
end

section
/-! PROOFS. What each CSR stores and shows (10_state.md sections 3 to 10, 41_csr_access.md section 1). -/

namespace Sys2Proof.Proofs

open Sys2Proof.Machine Sys2Proof.Claims

/-- Settles O29: the access check refuses a number that is no CSR's, before anything else. -/
theorem csrNumberOutsideTheSpecIsRefused : Obligations.CsrNumberOutsideTheSpecIsRefused := by
  intro i s
  refine ⟨wellFormed_eq_false_iff, fun h => ?_⟩
  obtain ⟨n, hi, hn⟩ := wellFormed_eq_false_iff.1 h
  exact exec_csr_of_outside hi hn

/-- Settles O30: the read shows the fields bit by bit, so what a write stores in the fields is what is read back. -/
theorem mstatusStoresItsFields : Obligations.MstatusStoresItsFields := by
  have hshow (s : State) {k : Nat} (hk : k < 13) := mstatusWord_getLsbD_low s hk
  refine ⟨fun s => ⟨hshow s (by decide), hshow s (by decide), hshow s (by decide), hshow s (by decide),
    hshow s (by decide), mstatusWord_mpp s, mstatusWord_hi s⟩, fun s v => ?_⟩
  refine ⟨_, rfl, rfl, ?_, ?_, ?_, mstatusWord_mpp _, ?_, ?_, mstatusWord_hi _⟩
  · intro k hk
    fin_cases hk <;> exact hshow _ (by decide)
  · intro k hk
    fin_cases hk <;> exact (hshow _ (by decide)).trans (sBit_sBit s _)
  · intro k hk
    fin_cases hk <;> exact hshow _ (by decide)
  · intro p hp hv
    show mppWritten s.cfg s.mstatus.mpp (v.extractLsb' 11 2) = p
    rw [hv, mppWritten_of_implements hp]
  · intro hv hno
    exact mppWritten_keeps hv hno _

/-- Settles O31: the read and the write are under the same mask. -/
theorem mieStoresTheSixEnables : Obligations.MieStoresTheSixEnables := by
  intro s v
  refine ⟨rfl, _, rfl, rfl, ?_⟩
  show v &&& s.mieMask &&& s.mieMask = _
  rw [BitVec.and_assoc, BitVec.and_self]
  rfl

/-- Settles O32: *mip* is the three wires and, with supervisor mode, the three bits a write stores. -/
theorem mipStoresOnlyItsSoftwareBits : Obligations.MipStoresOnlyItsSoftwareBits := by
  refine ⟨fun s => ?_, fun s v => ?_⟩
  · cases hS : s.cfg.hasS with
    | false => exact (mipWord_of_no_supervisor hS).trans BitVec.or_zero.symm
    | true =>
      refine (mipWord_of_hasS hS).trans ?_
      rw [bitAt_eq_ite s.ssip, bitAt_eq_ite s.stip, bitAt_eq_ite (s.seipSw || s.lines.seip)]
      rfl
  · cases hS : s.cfg.hasS with
    | false =>
      exact ⟨s, csrWrite_mip_of_no_supervisor hS v, rfl, fun _ => ⟨rfl, mipWord_of_no_supervisor hS⟩, nofun⟩
    | true =>
      refine ⟨_, csrWrite_mip_of_hasS hS v, rfl, nofun, fun _ => ⟨rfl, rfl, rfl, ?_⟩⟩
      have hwire : (if s.lines.seip then 0x200#64 else 0#64) = bitAt s.lines.seip 9 := (bitAt_eq_ite _ 9).symm
      rw [csrRead, mipWord_mipWritten hS, and_supervisorBits, hwire, bitAt_or]
      ac_rfl

/-- Settles O33: bit 9 of `CsrOld` is `seip_sw` alone, so a mask without bit 9 writes `seip_sw` back as it was. -/
theorem setAndClearOnMipNeverLatchTheWire : Obligations.SetAndClearOnMipNeverLatchTheWire := by
  intro s m h9 hS
  exact ⟨(mipWith_getLsbD s _ (by decide)).trans (sBit_of_hasS hS _),
    ⟨_, csrWrite_mip_of_hasS hS _, mip_after_set h9 hS⟩, ⟨_, csrWrite_mip_of_hasS hS _, mip_after_clear h9 hS⟩⟩

/-- Settles O34: a legal pair is stored exactly and the Interrupt bit always, and the legal pairs are the causes. -/
theorem causeStoresTheLegalPairs : Obligations.CauseStoresTheLegalPairs := by
  refine ⟨fun s => ⟨rfl, rfl⟩, fun s v => ?_⟩
  have hlegal : (∃ c, v = causeWord c) → causeWritten s v = v :=
    fun hc => causeWritten_of_legal s (causeLegal_iff.2 hc)
  exact ⟨⟨_, rfl, rfl, hlegal, causeWritten_interrupt s v⟩, ⟨_, rfl, rfl, hlegal, causeWritten_interrupt s v⟩,
    causeLegal_iff⟩

/-- Settles O35: the three cases are those of `tvecWritten?`, whose value is always BASE over a legal MODE; an
instruction that makes the write stops where the write does. -/
theorem trapVectorStoresALegalMode : Obligations.TrapVectorStoresALegalMode := by
  refine ⟨fun s => ⟨rfl, rfl⟩, fun s v c hc => ⟨fun hmode => ?_, fun hmode hno => ?_, fun _ hsupplied => ?_⟩⟩
  · obtain ⟨w, hw, hframe, hm, hs, hread⟩ := csrWrite_tvec_of_some hc (tvecWritten_of_legalMode hmode _ _)
    refine ⟨w, hw, hframe, hm, hs, ?_, ?_⟩
    · rw [hread, extractMode_append]
    · rw [hread, extractBase_append]
  · have hrefused := csrWrite_tvec_of_none hc (tvecWritten_of_reservedMode hmode hno _)
    refine ⟨hrefused, fun i hi hallowed hv => ?_⟩
    rw [exec_csr_of_accessAllowed hi hallowed, hv]
    exact mapNext_refused_iff.2 hrefused
  · obtain ⟨a, ha⟩ := tvecWritten_eq_some (csrRead s c) (.inr hsupplied)
    obtain ⟨w, hw, hframe, hm, hs, hread⟩ := csrWrite_tvec_of_some hc ha
    refine ⟨w, hw, hframe, hm, hs, ?_⟩
    rw [hread]
    exact tvecWritten_mode ha

/-- Settles O36: each register is written under its mask and read as stored. -/
theorem epcAndDelegationStoreUnderTheirMasks : Obligations.EpcAndDelegationStoreUnderTheirMasks := by
  have hdelegation (s : State) (hS : s.cfg.hasS = true) :
      csrRead s .mideleg = s.mideleg ∧ csrRead s .medeleg = s.medeleg :=
    ⟨if_pos hS, if_pos hS⟩
  refine ⟨fun s => ⟨rfl, rfl, hdelegation s⟩, fun s v => ?_⟩
  intro aligned
  have haligned : v &&& ~~~s.cfg.lowPcBits = aligned := and_not_lowPcBits s.cfg v
  rw [← haligned]
  exact ⟨⟨_, rfl, rfl, rfl⟩, ⟨_, rfl, rfl, rfl⟩,
    fun hS => ⟨⟨_, rfl, rfl, (hdelegation _ (by exact hS)).1⟩, ⟨_, rfl, rfl, (hdelegation _ (by exact hS)).2⟩⟩⟩

/-- Settles O37: *sstatus* is read and written under the mask of SIE, SPIE and SPP. -/
theorem sstatusIsAViewOfMstatus : Obligations.SstatusIsAViewOfMstatus := by
  intro s v hS
  refine ⟨?_, _, rfl, rfl, mstatusWord_sstatusWritten hS v⟩
  calc csrRead s .sstatus &&& 0x1FFF#64 = s.mstatusWord &&& 0x122#64 &&& 0x1FFF#64 := append_and_lowMask _ _
    _ = csrRead s .mstatus &&& 0x122#64 := by rw [BitVec.and_assoc]; rfl

end Sys2Proof.Proofs
end

section
/-! SUPPORT. When an interrupt is takeable, and which one is selected (60_exceptions.md sections 3 and 4). -/

namespace Sys2Proof.Machine

open Sys2Proof.Claims

/-- Machine-level interrupts are globally enabled below machine mode, and in it where MIE is 1 (R168, D8). -/
theorem machineOn_iff {s : State} : machineOn s = true ↔ s.priv ≠ .M ∨ s.mstatus.mie = true := by
  cases h : s.priv <;> simp [machineOn, h]

/-- Delegated interrupts are globally enabled in U, and in S where SIE is 1 (R169, R193). -/
theorem supervisorOn_iff {s : State} :
    supervisorOn s = true ↔ s.priv = .U ∨ s.priv = .S ∧ s.mstatus.sie = true := by
  cases h : s.priv <;> simp [supervisorOn, h]

/-- In machine mode no delegated interrupt is enabled (R193). -/
theorem supervisorOn_of_machine {s : State} (h : s.priv = .M) : supervisorOn s = false := by
  simp [supervisorOn, h]

theorem takeable_of_delegated {s : State} {i : IntCause} (h : mLevel s i = false) :
    takeable s i = (pend s i && supervisorOn s) := by
  simp [takeable, h]

/-- A cause is at machine level where *mideleg* reads 0 (R169, R191). -/
theorem mLevel_eq_false_iff {s : State} {i : IntCause} :
    mLevel s i = false ↔ (csrRead s .mideleg).getLsbD (intCode i) = true := by
  simp [mLevel, csrRead]

/-- The priority list names each cause at its rank (R171). -/
theorem priorityOrder_priorityRank (i : IntCause) : priorityOrder[priorityRank i]? = some i := by
  cases i <;> rfl

/-- No two causes have the same rank. -/
theorem priorityRank_injective {i j : IntCause} (h : priorityRank i = priorityRank j) : i = j := by
  have hi := priorityOrder_priorityRank i
  rw [h, priorityOrder_priorityRank j] at hi
  exact (Option.some.inj hi).symm

/-- The first of a list of rising rank that satisfies `p` has the least rank of those that do. -/
theorem priorityRank_le_of_find {l : List IntCause} (hl : l.Pairwise fun a b => priorityRank a < priorityRank b)
    {p : IntCause → Bool} {i j : IntCause} (hi : l.find? p = some i) (hj : j ∈ l) (hp : p j = true) :
    priorityRank i ≤ priorityRank j := by
  induction l with
  | nil => cases hj
  | cons a l ih =>
    obtain ⟨ha, hl⟩ := List.pairwise_cons.1 hl
    rw [List.find?_cons] at hi
    split at hi
    · cases hi
      rcases List.mem_cons.1 hj with rfl | hj
      · exact le_rfl
      · exact (ha j hj).le
    · rcases List.mem_cons.1 hj with rfl | hj
      · simp_all
      · exact ih hl hi hj

/-- The search of the priority list finds the cause of highest priority (R171). -/
theorem find_priorityOrder_iff {p : IntCause → Bool} {i : IntCause} :
    priorityOrder.find? p = some i ↔ p i = true ∧ ∀ j, p j = true → priorityRank i ≤ priorityRank j := by
  have hle {k j : IntCause} (hk : priorityOrder.find? p = some k) (hj : p j = true) :
      priorityRank k ≤ priorityRank j :=
    priorityRank_le_of_find (by decide) hk (mem_priorityOrder j) hj
  constructor
  · exact fun h => ⟨List.find?_some h, fun j => hle h⟩
  · rintro ⟨hi, hleast⟩
    obtain ⟨k, hk⟩ := Option.isSome_iff_exists.1 (List.find?_isSome.2 ⟨i, mem_priorityOrder i, hi⟩)
    rw [hk, priorityRank_injective (Nat.le_antisymm (hle hk hi) (hleast k (List.find?_some hk)))]

/-- The first loop of `select()` (R173). -/
theorem select_eq_machine_iff {s : State} {i : IntCause} :
    select s = some (i, .machine) ↔ priorityOrder.find? (fun i => takeable s i && mLevel s i) = some i := by
  unfold select
  split
  · next j hj => simp [hj]
  · next hnone => rw [hnone]; split <;> simp

/-- The second loop of `select()`, run where the first finds nothing (R173, D29). -/
theorem select_eq_supervisor_iff {s : State} {i : IntCause} :
    select s = some (i, .supervisor) ↔ priorityOrder.find? (fun i => takeable s i && mLevel s i) = none ∧
      priorityOrder.find? (fun i => takeable s i && !mLevel s i) = some i := by
  unfold select
  split
  · next j hj => simp [hj]
  · next hnone => rw [hnone]; split <;> simp [*]

/-- Nothing is selected where nothing is takeable (R173). -/
theorem select_eq_none {s : State} (h : ∀ i, takeable s i = false) : select s = none := by
  have hnone (q : IntCause → Bool) : priorityOrder.find? (fun i => takeable s i && q i) = none :=
    List.find?_eq_none.2 fun i _ => by simp [h]
  rw [select, hnone, hnone]

/-- In machine mode with MIE = 0 nothing is selected, whatever is pending (R168, R193). -/
theorem select_eq_none_of_masked {s : State} (hM : s.priv = .M) (hmie : s.mstatus.mie = false) :
    select s = none := by
  have hoff : machineOn s = false := by simp [machineOn, hM, hmie]
  exact select_eq_none fun i => by simp [takeable, hoff, supervisorOn_of_machine hM]

/-- In machine mode with MIE = 1 a machine-level cause is takeable where it is pending and enabled (R168). -/
theorem takeable_of_unmasked {s : State} {i : IntCause} (hmie : s.mstatus.mie = true) (hm : mLevel s i = true) :
    takeable s i = pend s i := by
  rw [takeable_of_mLevel hm, machineOn_iff.2 (.inr hmie), Bool.and_true]

/-- Below machine mode the selection does not see MIE (D8; notes/assumptions/32.md). -/
theorem select_congr_mie {s : State} (h : s.priv ≠ .M) (b : Bool) :
    select { s with mstatus := { s.mstatus with mie := b } } = select s := by
  have hon : machineOn { s with mstatus := { s.mstatus with mie := b } } = machineOn s := by
    rw [machineOn_iff.2 (.inl h)]
    exact machineOn_iff.2 (.inl h)
  have htake : takeable { s with mstatus := { s.mstatus with mie := b } } = takeable s := by
    funext i
    rw [takeable, hon]
    rfl
  rw [select, htake]
  rfl

/-- Where the machine-level causes all come before the delegated ones in the priority list, the two loops of
`select()` are one pass over it (R173). -/
theorem select_eq_singlePass_of_split {s : State} {as bs : List IntCause} (hl : priorityOrder = as ++ bs)
    (ha : ∀ i ∈ as, mLevel s i = true) (hb : ∀ i ∈ bs, mLevel s i = false) : select s = singlePass s := by
  have hloop (q : IntCause → Bool) (l : List IntCause) (hq : ∀ i ∈ l, q i = true) :
      l.find? (fun i => takeable s i && q i) = l.find? (takeable s) :=
    List.find?_congr fun i hi => by simp [hq i hi]
  have hempty (q : IntCause → Bool) (l : List IntCause) (hq : ∀ i ∈ l, q i = false) :
      l.find? (fun i => takeable s i && q i) = none :=
    List.find?_eq_none.2 fun i hi => by simp [hq i hi]
  have hmachine : priorityOrder.find? (fun i => takeable s i && mLevel s i) = as.find? (takeable s) := by
    rw [hl, List.find?_append, hloop _ as ha, hempty _ bs hb, Option.or_none]
  have hsupervisor : priorityOrder.find? (fun i => takeable s i && !mLevel s i) = bs.find? (takeable s) := by
    rw [hl, List.find?_append, hempty (fun i => !mLevel s i) as (by simpa using ha),
      hloop (fun i => !mLevel s i) bs (by simpa using hb), Option.none_or]
  rw [select, hmachine, hsupervisor, singlePass, hl, List.find?_append]
  split
  · next i hi => simp [hi, ha i (List.mem_of_find?_eq_some hi)]
  · next hnone =>
    rw [hnone]
    split
    · next i hi => simp [hi, hb i (List.mem_of_find?_eq_some hi)]
    · next hi => simp [hi]

end Sys2Proof.Machine
end

section
/-! PROOFS. The take condition and the selection (60_exceptions.md sections 2 to 4 and 9). -/

namespace Sys2Proof.Proofs

open Sys2Proof.Machine Sys2Proof.Claims

/-- Settles O40: each loop finds the cause of least rank among those it may take, and the second runs only where the
first finds none. -/
theorem selectionIsTheHighestPriority : Obligations.SelectionIsTheHighestPriority := by
  intro s i
  refine ⟨?_, ?_⟩
  · rw [select_eq_machine_iff, find_priorityOrder_iff]
    simp only [Bool.and_eq_true, and_imp, and_assoc]
  · rw [select_eq_supervisor_iff, find_priorityOrder_iff, List.find?_eq_none]
    simp only [mem_priorityOrder, forall_const, Bool.and_eq_true, not_and, Bool.not_eq_true', Bool.not_eq_true,
      and_imp]
    constructor
    · rintro ⟨hnone, ⟨htake, hlevel⟩, hleast⟩
      exact ⟨htake, hlevel, hnone, fun j hj => hleast j hj (hnone j hj)⟩
    · rintro ⟨htake, hlevel, hnone, hleast⟩
      exact ⟨hnone, ⟨htake, hlevel⟩, fun j hj _ => hleast j hj⟩

/-- Settles O41: the level *mideleg* gives the cause decides which global enable counts. -/
theorem takeableByTheBitsSoftwareReads : Obligations.TakeableByTheBitsSoftwareReads := by
  intro s i
  rw [← and_assoc, ← Bool.and_eq_true]
  cases hlevel : mLevel s i with
  | true =>
    have hbit : ¬ (csrRead s .mideleg).getLsbD (intCode i) = true := mt mLevel_eq_false_iff.2 (by simp [hlevel])
    rw [takeable_of_mLevel hlevel, Bool.and_eq_true, machineOn_iff, if_neg hbit]
    rfl
  | false =>
    rw [takeable_of_delegated hlevel, Bool.and_eq_true, supervisorOn_iff, if_pos (mLevel_eq_false_iff.1 hlevel)]
    rfl

/-- Settles O42: with *mideleg* 0 no cause is delegated, and with 0x222 the last three of the list are, so in both
cases the machine-level causes come first in the list. -/
theorem twoLoopsAgreeWithASinglePass : Obligations.TwoLoopsAgreeWithASinglePass := by
  intro s h
  have hlevel (i : IntCause) : mLevel s i = !(csrRead s .mideleg).getLsbD (intCode i) := rfl
  rcases h with h | h
  · exact select_eq_singlePass_of_split (List.append_nil _).symm (fun i _ => by simp [hlevel, h]) nofun
  · refine select_eq_singlePass_of_split (as := [.machineExternal, .machineSoftware, .machineTimer]) rfl ?_ ?_
    · intro i hi
      rw [hlevel, h]
      fin_cases hi <;> rfl
    · intro i hi
      rw [hlevel, h]
      fin_cases hi <;> rfl

/-- Settles O43: in S with SIE = 1 both levels are on, so what is takeable are causes 1 and 5, of which the single
pass meets the delegated 1 first. -/
theorem partialDelegationTakesTheMachineLevelCause : Obligations.PartialDelegationTakesTheMachineLevelCause := by
  intro s hS hsie hmideleg hmie hmip
  have hlevel (i : IntCause) : mLevel s i = !(0x002#64).getLsbD (intCode i) := by rw [← hmideleg]; rfl
  have htake (i : IntCause) : takeable s i = (0x022#64).getLsbD (intCode i) := by
    have hpend : pend s i = (0x022#64).getLsbD (intCode i) := by
      rw [← Bool.and_self ((0x022#64).getLsbD _)]
      nth_rw 1 [← hmip]
      rw [← hmie]
      rfl
    have hon : machineOn s = true := machineOn_of_supervisor hS
    have hson : supervisorOn s = true := supervisorOn_iff.2 (.inr ⟨hS, hsie⟩)
    rw [takeable, hpend, hon, hson]
    cases mLevel s i <;> simp
  simp [select, singlePass, priorityOrder, hlevel, htake, intCode]

/-- Settles O44: MIE stands in the machine-mode clause of `m_on` alone. -/
theorem mieMasksMachineModeOnly : Obligations.MieMasksMachineModeOnly := by
  intro s
  refine ⟨fun _ hmie i hm => takeable_of_unmasked hmie hm, fun hM hmie => ?_, fun b => rfl, select_congr_mie⟩
  have hnone := select_eq_none_of_masked hM hmie
  exact ⟨hnone, interruptTaken_of_select_none hnone⟩

/-- Settles O45: what is selected is takeable, at the level *mideleg* gives it, and no delegated cause is takeable in
machine mode. -/
theorem delegatedInterruptsNeverReachMachineMode : Obligations.DelegatedInterruptsNeverReachMachineMode := by
  intro s i
  refine ⟨fun hbit => ?_, fun hbit hsel => ?_⟩
  · have hlevel := mLevel_eq_false_iff.2 hbit
    refine ⟨fun hsel => ?_, fun hM lvl hsel => ?_⟩
    · obtain ⟨-, hm⟩ := select_some hsel
      simp [hm.1 rfl] at hlevel
    · obtain ⟨htake, -⟩ := select_some hsel
      simp [takeable_of_delegated hlevel, supervisorOn_of_machine hM] at htake
  · obtain ⟨-, hm⟩ := select_some hsel
    have hlevel : mLevel s i = true := by simp [mLevel, show s.midelegWord.getLsbD (intCode i) = false from hbit]
    cases hm.2 hlevel

end Sys2Proof.Proofs
end

section
/-! SUPPORT. What an instruction started in machine mode leaves at the next boundary (41_csr_access.md section 3). -/

namespace Sys2Proof.Machine

open Sys2Proof.Claims

/-- Machine mode may access every CSR that exists (R107, R133). -/
theorem accessAllowed_of_machine {s : State} {c : Csr} (hM : s.priv = .M) (hc : csrIsAnnex c = false) :
    accessAllowed s c := by
  refine ⟨fun h => absurd h (by simp [hc]), ?_⟩
  rw [hM]
  cases c <;> decide

/-- A CSR instruction that completes from machine mode ends in machine mode: it moves on, or its exception is taken
into machine mode (R133, R192). -/
theorem exec_csr_priv_of_machine {i : Instr} {s t : State} {n : BitVec 12} (hM : s.priv = .M)
    (hi : i.csrField? = some n) (h : exec i s = .next t) : t.priv = .M := by
  rcases exec_next h with ⟨e, hr⟩ | ⟨rfl, -, -⟩ | ⟨rfl, -, -, -⟩ | ⟨_, c, w, -, -, hw, rfl⟩
  · obtain ⟨a, -, rfl⟩ := raise_next hr
    rw [excLevel_of_machine hM]
    rfl
  · cases hi
  · cases hi
  · rcases hw with ⟨v, hw⟩ | rfl
    · obtain ⟨-, -, hpriv, -⟩ := csrWrite_sameButCsrs hw
      exact hpriv.trans hM
    · exact hM

end Sys2Proof.Machine
end

section
/-! PROOFS. A CSR write and the next boundary (41_csr_access.md section 3). -/

namespace Sys2Proof.Proofs

open Sys2Proof.Machine

/-- Settles O47: in machine mode *mstatus* is accessible and its write has a meaning, so the instruction completes;
and after any CSR instruction the mode is M, where MIE alone decides. -/
theorem mieWriteTakesEffectAtTheNextBoundary : Obligations.MieWriteTakesEffectAtTheNextBoundary := by
  intro i s hM
  refine ⟨fun hi => ?_, fun n t hi ht => ?_⟩
  · rw [exec_csr_of_accessAllowed hi (accessAllowed_of_machine hM rfl)]
    cases Claims.valueWritten? i s .mstatus with
    | none => exact ⟨_, rfl, rfl, hM, nofun, fun _ => rfl, fun j => ⟨rfl, rfl⟩⟩
    | some v =>
      refine ⟨_, rfl, rfl, hM, fun v' hv => ?_, nofun, fun j => ⟨rfl, rfl⟩⟩
      cases hv
      rfl
  · have hpriv := exec_csr_priv_of_machine hM hi ht
    refine ⟨fun hmie j hpend hlevel => ?_, select_eq_none_of_masked hpriv⟩
    exact select_machine_of_takeable ((takeable_of_unmasked hmie hlevel).trans hpend) hlevel

end Sys2Proof.Proofs
end

section
/-! SUPPORT. The legal states (10_state.md): what reset leaves is one, and each operation of the hart keeps one. -/

namespace Sys2Proof.Machine

open Sys2Proof.Claims

/-- The configurations the spec allows, clause by clause (R52, R187, R20). -/
theorem legal_cfg_iff {cfg : Config} :
    cfg.legal = true ↔ (cfg.hasS = true → cfg.hasU = true) ∧ cfg.medelegMask.getLsbD 11 = false ∧
      cfg.resetPc &&& cfg.lowPcBits = 0#64 := by
  cases hS : cfg.hasS <;> simp [Config.legal, hS, and_assoc]

/-- A multiple of 4 is an instruction address, whatever IALIGN is (R49, R86). -/
theorem and_lowPcBits_of_and_three {a : Word} (h : a &&& 0x3#64 = 0#64) (cfg : Config) :
    a &&& cfg.lowPcBits = 0#64 := by
  have hlow : cfg.lowPcBits = 0x3#64 &&& cfg.lowPcBits := by
    unfold Config.lowPcBits
    cases cfg.ialign <;> rfl
  rw [hlow, ← BitVec.and_assoc, h, BitVec.zero_and]

/-- The low bits of an address are 0 where it is a multiple of their power of 2. -/
theorem and_lowOnes_eq_zero_iff (a : Word) {m : Word} {n : Nat} (hm : m.toNat = 2 ^ n - 1) :
    a &&& m = 0#64 ↔ a.toNat % 2 ^ n = 0 := by
  rw [← BitVec.toNat_inj, BitVec.toNat_and, hm, Nat.and_two_pow_sub_one_eq_mod, BitVec.toNat_zero]

/-- The instruction after an aligned one is aligned (R20, R86). -/
theorem add_four_and_lowPcBits {a : Word} {cfg : Config} (h : a &&& cfg.lowPcBits = 0#64) :
    (a + 4#64) &&& cfg.lowPcBits = 0#64 := by
  obtain ⟨n, hn, hlow⟩ : ∃ n ≤ 2, cfg.lowPcBits.toNat = 2 ^ n - 1 := by
    unfold Config.lowPcBits
    cases cfg.ialign
    exacts [⟨1, by decide, rfl⟩, ⟨2, by decide, rfl⟩]
  rw [and_lowOnes_eq_zero_iff _ hlow] at *
  interval_cases n <;> bv_omega

/-- What is stored under the complement of a mask has nothing under the mask. -/
theorem and_not_and_self (v m : Word) : v &&& ~~~m &&& m = 0#64 := by
  rw [BitVec.and_assoc, BitVec.and_comm (~~~m), BitVec.and_not_self]
  exact BitVec.and_zero

/-- What is stored under a mask has nothing outside it. -/
theorem and_self_and_not (v m : Word) : v &&& m &&& ~~~m = 0#64 := by
  rw [BitVec.and_assoc, BitVec.and_not_self]
  exact BitVec.and_zero

/-- A write through a view stays in a mask that holds the register and the view. -/
theorem replaceUnder_and_eq_zero {a m k : Word} (v : Word) (ha : a &&& k = 0#64) (hm : m &&& k = 0#64) :
    ((a &&& ~~~m) ||| (v &&& m)) &&& k = 0#64 := by
  rw [BitVec.and_or_distrib_right, BitVec.and_assoc, BitVec.and_comm (~~~m), ← BitVec.and_assoc, ha, BitVec.and_assoc,
    hm, BitVec.zero_and, BitVec.and_zero, BitVec.or_zero]

/-- MODE is 0 or 1 where bit 1 is 0 (R45). -/
theorem mode_lt_two_iff {v : Word} : v.extractLsb' 0 2 < 2#2 ↔ v.getLsbD 1 = false := by
  have hmode (m : BitVec 2) : m < 2#2 ↔ m.getLsbD 1 = false := by
    revert m
    decide
  rw [hmode, BitVec.getLsbD_extractLsb']
  simp

/-- MPP holds a mode the hart has after every write (R30). -/
theorem implements_mppWritten {cfg : Config} {old : Priv} (h : cfg.implements old = true) (b : BitVec 2) :
    cfg.implements (mppWritten cfg old b) = true := by
  have hlegalized : cfg.implements (mppLegalized cfg old b) = true := by
    unfold mppLegalized
    split
    · next hboth => exact (Bool.and_eq_true_iff.1 hboth).2
    · exact h
  unfold mppWritten
  split
  · split
    · assumption
    · exact hlegalized
  · exact hlegalized

theorem implements_resetMpp (cfg : Config) (p : Priv) : cfg.implements (resetMpp cfg p) = true := by
  unfold resetMpp
  split
  · assumption
  · rfl

/-- The mode MRET leaves in MPP is one the hart has (R120). -/
theorem implements_leastMode (cfg : Config) : cfg.implements cfg.leastMode = true := by
  unfold Config.leastMode
  split
  · assumption
  · rfl

/-- The view of *sie* lies within the enables of *mie* (R33, R54). -/
theorem sViewMask_and_not_mieMask {s : State} (h : s.cfg.hasS = true) :
    s.sViewMask &&& ~~~s.mieMask = 0#64 := by
  have hmasks : (0x222#64 &&& ~~~0xAAA#64 : Word) = 0#64 := by decide
  rw [State.sViewMask, State.mieMask, if_pos h, BitVec.and_assoc, hmasks, BitVec.and_zero]

/-- The state after reset is legal for every allowed configuration and every choice of what R61 leaves open. -/
theorem legal_afterReset {cfg : Config} {mem : Memory} (hcfg : cfg.legal = true) (hmem : Memory.wf mem = true)
    (lines : Lines) (agenda : List Turn) (draws : Nat) (u : ResetDraw) :
    Legal (State.afterReset cfg lines mem agenda draws u) where
  cfg := hcfg
  pc := by
    obtain ⟨-, -, hpc⟩ := legal_cfg_iff.1 hcfg
    exact hpc
  priv := rfl
  mpp := implements_resetMpp cfg u.mpp
  mie := and_self_and_not _ _
  mideleg := BitVec.zero_and
  medeleg := BitVec.zero_and
  mtvec := by simp [State.afterReset, resetTvec]
  stvec := by simp [State.afterReset, resetTvec]
  mepc := and_not_and_self _ _
  sepc := and_not_and_self _ _
  noS := fun h => by
    have hS : cfg.hasS = false := h
    simp [State.afterReset, hS]
  mem := hmem

section
variable {s : State} (hl : Legal s)
include hl

theorem legal_popTurn : Legal s.popTurn := { hl with }

theorem legal_clintTurn (a b : Bool) : Legal (s.clintTurn a b) := { hl with }

theorem legal_plicTurn (a b : Bool) : Legal (s.plicTurn a b) := { hl with }

theorem legal_resetTurn (u : ResetDraw) : Legal (s.resetTurn u) := legal_afterReset hl.cfg hl.mem _ _ _ u

/-- Moving on to the next instruction (R20). -/
theorem legal_retire (rd : RegIdx) (v : Word) : Legal (s.retire rd v) :=
  { hl with pc := add_four_and_lowPcBits hl.pc }

/-- Trap entry into machine mode, with an aligned target (R174). -/
theorem legal_enterMachine (c : Cause) {a : Word} (ha : a &&& 0x3#64 = 0#64) : Legal (s.enterMachine c a) :=
  { hl with
    pc := and_lowPcBits_of_and_three ha _
    priv := rfl
    mpp := hl.priv
    mepc := hl.pc }

/-- Trap entry into supervisor mode, with an aligned target, on a hart that has it (R196). -/
theorem legal_enterSupervisor (hS : s.cfg.hasS = true) (c : Cause) {a : Word} (ha : a &&& 0x3#64 = 0#64) :
    Legal (s.enterSupervisor c a) :=
  { hl with
    pc := and_lowPcBits_of_and_three ha _
    priv := hS
    sepc := hl.pc
    noS := fun h => absurd (hS.symm.trans h) (by decide) }

/-- MRET's effect (R120). -/
theorem legal_returnMachine : Legal s.returnMachine :=
  { hl with
    pc := hl.mepc
    priv := hl.mpp
    mpp := implements_leastMode _ }

/-- SRET's effect, on a hart that has supervisor mode and so user mode (R121, R187). -/
theorem legal_returnSupervisor (hS : s.cfg.hasS = true) : Legal s.returnSupervisor :=
  { hl with
    pc := hl.sepc
    priv := by
      rw [State.returnSupervisor_priv]
      split
      · exact hS
      · obtain ⟨hU, -⟩ := legal_cfg_iff.1 hl.cfg
        exact hU hS
    noS := fun h => absurd (hS.symm.trans h) (by decide) }

/-- A CSR write, of a CSR that exists: each register is stored under the mask or at the alignment that `Legal` asks
of it (R132). -/
theorem legal_csrWrite {w : State} {v : Word} {c : Csr} (hc : csrIsAnnex c = true → s.cfg.hasS = true)
    (hw : csrWrite s v c = .next w) : Legal w := by
  have hannex (h : csrIsAnnex c = true) {p : Prop} (hno : s.cfg.hasS = false) : p :=
    absurd ((hc h).symm.trans hno) (by decide)
  cases c with
  | mstatus =>
    cases hw
    exact { hl with
      mpp := implements_mppWritten hl.mpp _
      noS := fun h => by
        obtain ⟨-, -, -, hrest⟩ := hl.noS h
        exact ⟨sBit_of_no_supervisor h _, sBit_of_no_supervisor h _, sBit_of_no_supervisor h _, hrest⟩ }
  | mie =>
    cases hw
    exact { hl with mie := and_self_and_not _ _ }
  | mip =>
    cases hS : s.cfg.hasS with
    | false =>
      rw [csrWrite_mip_of_no_supervisor hS] at hw
      cases hw
      exact hl
    | true =>
      cases hw
      exact { hl with noS := fun h => absurd (hS.symm.trans h) (by decide) }
  | mcause | scause =>
    cases hw
    exact { hl with }
  | mepc =>
    cases hw
    exact { hl with mepc := and_not_and_self _ _ }
  | sepc =>
    cases hw
    exact { hl with sepc := and_not_and_self _ _ }
  | mideleg =>
    cases hw
    exact { hl with mideleg := and_self_and_not _ _, noS := hannex rfl }
  | medeleg =>
    cases hw
    exact { hl with medeleg := and_self_and_not _ _, noS := hannex rfl }
  | sstatus | sip =>
    cases hw
    exact { hl with noS := hannex rfl }
  | sie =>
    cases hw
    exact { hl with mie := replaceUnder_and_eq_zero v hl.mie (sViewMask_and_not_mieMask (hc rfl)) }
  | mtvec =>
    simp only [csrWrite] at hw
    split at hw
    · next a ha =>
      cases hw
      exact { hl with mtvec := mode_lt_two_iff.1 (tvecWritten_mode ha) }
    · cases hw
  | stvec =>
    simp only [csrWrite] at hw
    split at hw
    · next a ha =>
      cases hw
      exact { hl with stvec := mode_lt_two_iff.1 (tvecWritten_mode ha) }
    · cases hw

/-- Taking a trap, into a level the hart has. -/
theorem legal_enterTrap {t : State} {lvl : Level} {c : Cause} (hlvl : lvl = .supervisor → s.cfg.hasS = true)
    (h : enterTrap lvl c s = .next t) : Legal t := by
  obtain ⟨a, ha, rfl⟩ := enterTrap_next h
  cases lvl with
  | machine => exact legal_enterMachine hl c (trapTarget_and_three ha)
  | supervisor => exact legal_enterSupervisor hl (hlvl rfl) c (trapTarget_and_three ha)

/-- Raising an exception, which is delegated only on a hart that has supervisor mode (R192). -/
theorem legal_raise {t : State} {e : ExcCause} (h : raise e s = .next t) : Legal t := by
  refine legal_enterTrap hl (fun hlvl => ?_) h
  obtain ⟨-, hS, -⟩ := excLevel_eq_supervisor_iff.1 hlvl
  exact hS

/-- Every instruction, by the four things it can do (`exec_next`). -/
theorem legal_exec {t : State} {i : Instr} (h : exec i s = .next t) : Legal t := by
  rcases exec_next h with ⟨e, hr⟩ | ⟨-, -, rfl⟩ | ⟨-, -, hS, rfl⟩ | ⟨_, c, w, -, hc, hw, rfl⟩
  · exact legal_raise hl hr
  · exact legal_returnMachine hl
  · exact legal_returnSupervisor hl hS
  · refine legal_retire ?_ _ _
    rcases hw with ⟨v, hw⟩ | rfl
    · obtain ⟨-, hexists, -⟩ := csrCheck_allowed hc
      exact legal_csrWrite hl hexists hw
    · exact hl

end

/-- A cause is selected for supervisor mode only on a hart that has it: elsewhere nothing is delegated (R191, R199). -/
theorem hasS_of_select_supervisor {s : State} {i : IntCause} (h : select s = some (i, .supervisor)) :
    s.cfg.hasS = true := by
  by_contra hS
  obtain ⟨-, hlevel⟩ := select_some h
  cases hlevel.2 (mLevel_of_no_supervisor (by simpa using hS) i)

/-- A step of the hart: an interrupt, code 0, or an instruction (R14). -/
theorem legal_hartStep {s t : State} {b : Bool} (hl : Legal s) (h : hartStep b s = .next t) : Legal t := by
  rcases hartStep_next h with ⟨i, lvl, htaken, ht⟩ | ⟨-, -, hr⟩ | ⟨-, -, hf⟩
  · refine legal_enterTrap hl (fun hlvl => ?_) ht
    subst hlvl
    exact hasS_of_select_supervisor (interruptTaken_some htaken)
  · exact legal_raise hl hr
  · obtain ⟨_, i, _, -, -, he⟩ := fetchAndExecute_next hf
    exact legal_exec hl he

/-- The bits of *mstatus* that reset leaves 0: the reserved ones, SIE, MIE and MPRV (R31, R32, R61). -/
theorem mstatusWord_afterReset (cfg : Config) (lines : Lines) (mem : Memory) (agenda : List Turn) (draws : Nat)
    (u : ResetDraw) : (State.afterReset cfg lines mem agenda draws u).mstatusWord &&& 0x2065F#64 = 0#64 := by
  have hbits : ∀ k < 64, (0x2065F#64).getLsbD k = true → k ∈ [0, 1, 2, 3, 4, 6, 9, 10, 17] := by decide
  apply BitVec.eq_of_getLsbD_eq
  intro k hk
  rw [BitVec.getLsbD_and, BitVec.getLsbD_zero, Bool.and_eq_false_iff, or_iff_not_imp_right, Bool.not_eq_false]
  intro hmask
  by_cases hlow : k < 13
  · rw [mstatusWord_getLsbD_low _ hlow]
    have := hbits k hk hmask
    fin_cases this <;> simp_all [State.afterReset, State.sBit]
  · obtain rfl : k = 13 + 4 := by
      have := hbits k hk hmask
      simp only [List.mem_cons, List.not_mem_nil, or_false] at this
      omega
    rw [mstatusWord_getLsbD_high]
    simp [State.afterReset, resetMstatusHi]

end Sys2Proof.Machine
end

section
/-! PROOFS. Reset (10_state.md section 12, 70_reset_and_hazards.md section 1), and that every step keeps a legal
state. -/

namespace Sys2Proof.Proofs

open Sys2Proof.Machine

/-- Settles O48: the reset turn is `State.afterReset` on the machine's own parameters, wires and memory. -/
theorem resetLeavesWhatTheSpecGives : Obligations.ResetLeavesWhatTheSpecGives := by
  intro s u later ha
  have hstep : step s = .next (s.popTurn.resetTurn u) := by rw [step, nextTurn, ha]
  refine ⟨_, hstep, rfl, rfl, rfl, rfl, rfl, rfl, mstatusWord_afterReset .., ?_, rfl, rfl, rfl, ?_⟩
  · have hmask : (s.popTurn.resetTurn u).mieMask &&& ~~~0xAAA#64 = 0#64 := by
      unfold State.mieMask
      split <;> decide
    rw [csrRead, State.mieWord, BitVec.and_assoc, hmask, BitVec.and_zero]
  · rw [State.resetTurn_agenda, State.popTurn_agenda, ha, List.tail_cons]

/-- Settles O49: reset leaves machine mode with MIE = 0, where nothing is selected. -/
theorem noInterruptDirectlyAfterReset : Obligations.NoInterruptDirectlyAfterReset := by
  intro cfg lines mem agenda d u
  exact select_eq_none_of_masked rfl rfl

/-- Settles O50: `State.reset` is the state after reset for one choice, and that state is legal for every choice. -/
theorem resetIsALegalState : Obligations.ResetIsALegalState :=
  legal_afterReset (by decide) rfl _ _ _ _

/-- Settles O51: each agent's turn is one of the operations that keep a legal state (`legal_hartStep`,
`legal_clintTurn`, `legal_plicTurn`, `legal_resetTurn`). -/
theorem everyStepKeepsALegalState : Obligations.EveryStepKeepsALegalState := by
  intro s t hl h
  have hpop := legal_popTurn hl
  rcases step_next h with ⟨b, hh⟩ | ⟨a, b, rfl⟩ | ⟨a, b, rfl⟩ | ⟨u, rfl⟩
  · exact legal_hartStep hpop hh
  · exact legal_clintTurn hpop a b
  · exact legal_plicTurn hpop a b
  · exact legal_resetTurn hpop u

end Sys2Proof.Proofs
end

section
/-! SUPPORT. When an instruction is refused, and for which reason (93_implementation_defined.md Part 1b). -/

namespace Sys2Proof.Machine

open Sys2Proof.Claims

/-- The exceptions of the source's table, in its order (R181). -/
def exceptionTable : List ExcCause :=
  [.instructionAddressMisaligned, .instructionAccessFault, .illegalInstruction, .breakpoint, .loadAddressMisaligned,
    .loadAccessFault, .storeAddressMisaligned, .storeAccessFault, .environmentCallFromU, .environmentCallFromS,
    .environmentCallFromM, .instructionPageFault, .loadPageFault, .storePageFault]

/-- Each exception is the first of the table with its code. -/
theorem exceptionTable_find (e : ExcCause) : exceptionTable.find? (fun x => excCode x == excCode e) = some e := by
  cases e <;> rfl

/-- No two exceptions have the same code (R181). -/
theorem excCode_injective {e e' : ExcCause} (h : excCode e = excCode e') : e = e' := by
  have he := exceptionTable_find e
  rw [h, exceptionTable_find e'] at he
  exact (Option.some.inj he).symm

/-- The vector of an exception is that of the level it is taken into (R192). -/
theorem exceptionVector_iff {e : ExcCause} {s : State} {v : Word} :
    exceptionVector s (excCode e) v ↔ v = s.tvecOf (excLevel e s) := by
  rw [exceptionVector, ← excLevel_eq_supervisor_iff]
  cases excLevel e s <;> simp [State.tvecOf]

/-- An exception is refused where its own vector has no target for it (R177). -/
theorem raise_refused_iff {e : ExcCause} {s : State} {r : Refusal} :
    raise e s = .refused r ↔
      ∃ v, exceptionVector s (excCode e) v ∧ trapTarget v (.exception e) = .error r := by
  simp only [raise, enterTrap_refused_iff, exceptionVector_iff, exists_eq_left]

/-- The five things an instruction can meet: a CSR number outside the spec, an exception that is due, MRET or SRET
where they are legal, a CSR it may access. -/
theorem exec_cases (i : Instr) (s : State) :
    i.wellFormed = false ∨ (∃ e, exceptionDue i s (excCode e)) ∨ (i = .mret ∧ s.priv = .M) ∨
      (i = .sret ∧ ¬ (s.cfg.hasS = false ∨ s.priv = .U ∨ s.priv = .S ∧ s.tsr = true)) ∨
      ∃ c, i.csrField? = some (csrNumber c) ∧ accessAllowed s c := by
  cases i with
  | ecall => exact .inr (.inl ⟨ecallCause s.priv, excCode_ecallCause s.priv⟩)
  | ebreak => exact .inr (.inl ⟨.breakpoint, rfl⟩)
  | mret =>
    by_cases hM : s.priv = .M
    · exact .inr (.inr (.inl ⟨rfl, hM⟩))
    · exact .inr (.inl ⟨.illegalInstruction, rfl, hM⟩)
  | sret =>
    by_cases hillegal : s.cfg.hasS = false ∨ s.priv = .U ∨ s.priv = .S ∧ s.tsr = true
    · exact .inr (.inl ⟨.illegalInstruction, rfl, hillegal⟩)
    · exact .inr (.inr (.inr (.inl ⟨rfl, hillegal⟩)))
  | csrrw _ n | csrrs _ n | csrrc _ n | csrrwi _ n | csrrsi _ n | csrrci _ n =>
    by_cases hn : ∃ c, n = csrNumber c
    · obtain ⟨c, rfl⟩ := hn
      by_cases hallowed : accessAllowed s c
      · exact .inr (.inr (.inr (.inr ⟨c, rfl, hallowed⟩)))
      · exact .inr (.inl ⟨.illegalInstruction, rfl, c, rfl, hallowed⟩)
    · exact .inl (wellFormed_eq_false_iff.2 ⟨n, rfl, fun c hc => hn ⟨c, hc.symm⟩⟩)

/-- An exception that is due has the code of one of the source's table. -/
theorem exists_excCode_of_exceptionDue {i : Instr} {s : State} {n : Nat} (h : exceptionDue i s n) :
    ∃ e, excCode e = n := by
  cases i with
  | ecall => exact ⟨_, (excCode_ecallCause s.priv).trans (Eq.symm h)⟩
  | ebreak => exact ⟨.breakpoint, Eq.symm h⟩
  | sret | mret | csrrw | csrrs | csrrc | csrrwi | csrrsi | csrrci =>
    obtain ⟨hcode, -⟩ := h
    exact ⟨.illegalInstruction, hcode.symm⟩

/-- An exception that is due is raised, and nothing else is done (R110, R120, R121, R133, R150, R151). -/
theorem exec_of_exceptionDue {i : Instr} {s : State} {e : ExcCause} (h : exceptionDue i s (excCode e)) :
    exec i s = raise e s := by
  cases i with
  | ecall =>
    obtain rfl := excCode_injective (Eq.trans h (excCode_ecallCause s.priv).symm)
    rfl
  | ebreak =>
    obtain rfl : e = .breakpoint := excCode_injective h
    rfl
  | mret =>
    obtain ⟨hcode, hM⟩ := h
    obtain rfl : e = .illegalInstruction := excCode_injective hcode
    exact exec_mret_of_not_machine hM
  | sret =>
    obtain ⟨hcode, hillegal⟩ := h
    obtain rfl : e = .illegalInstruction := excCode_injective hcode
    exact exec_sret_of_illegal hillegal
  | csrrw | csrrs | csrrc | csrrwi | csrrsi | csrrci =>
    obtain ⟨hcode, c, rfl, hno⟩ := h
    obtain rfl : e = .illegalInstruction := excCode_injective hcode
    exact exec_csr_of_not_accessAllowed rfl hno

/-- SRET completes where it is not illegal (R121). -/
theorem exec_sret_of_not_illegal {s : State}
    (h : ¬ (s.cfg.hasS = false ∨ s.priv = .U ∨ s.priv = .S ∧ s.tsr = true)) :
    exec .sret s = .next s.returnSupervisor := by
  obtain ⟨hS, hU, htsr⟩ : s.cfg.hasS = true ∧ s.priv ≠ .U ∧ ¬ (s.priv = .S ∧ s.tsr = true) := by simpa using h
  simp [exec, execSret, hS, hU, htsr]

/-- A CSR write is refused for one reason: a reserved MODE to a trap vector without `legalize_mtvec` (R47, R56). -/
theorem csrWrite_refused_iff {s : State} {v : Word} {c : Csr} {r : Refusal} :
    csrWrite s v c = .refused r ↔ r = .tvecWriteReservedMode ∧ (c = .mtvec ∨ c = .stvec) ∧
      ¬ v.extractLsb' 0 2 < 2#2 ∧ s.cfg.legalizeMtvecSupplied = false := by
  constructor
  · intro h
    have hnot : ¬ writeMeaningful s c v := fun hmeaning => by
      obtain ⟨w, hw⟩ := csrWrite_of_writeMeaningful hmeaning
      rw [hw] at h
      cases h
    obtain ⟨hc, hmode, hno⟩ : (c = .mtvec ∨ c = .stvec) ∧ ¬ v.extractLsb' 0 2 < 2#2 ∧
        s.cfg.legalizeMtvecSupplied = false := by
      simpa only [writeMeaningful, Classical.not_imp, not_or, Bool.not_eq_true] using hnot
    rw [csrWrite_tvec_of_none hc (tvecWritten_of_reservedMode hmode hno _)] at h
    cases h
    exact ⟨rfl, hc, hmode, hno⟩
  · rintro ⟨rfl, hc, hmode, hno⟩
    exact csrWrite_tvec_of_none hc (tvecWritten_of_reservedMode hmode hno _)

/-- A CSR instruction on an allowed CSR is refused where its write is. -/
theorem csrEffect_refused_iff {i : Instr} {s : State} {c : Csr} {ov : Option Word} {r : Refusal} :
    csrEffect i s c ov = .refused r ↔ ∃ v, ov = some v ∧ csrWrite s v c = .refused r := by
  cases ov with
  | none => simp [csrEffect]
  | some v => simp [csrEffect, mapNext_refused_iff]

/-- When an instruction is refused: its CSR number is outside the spec, or an exception is due that has no target, or
it makes a CSR write that is refused. -/
theorem exec_refused_iff {i : Instr} {s : State} {r : Refusal} :
    exec i s = .refused r ↔
      (r = .csrOutsideSpec ∧ i.wellFormed = false) ∨
        (∃ e, exceptionDue i s (excCode e) ∧ raise e s = .refused r) ∨
        ∃ c v, i.csrField? = some (csrNumber c) ∧ accessAllowed s c ∧ valueWritten? i s c = some v ∧
          csrWrite s v c = .refused r := by
  have houtside (h : i.wellFormed = false) : exec i s = .refused .csrOutsideSpec := by
    obtain ⟨n, hi, hn⟩ := wellFormed_eq_false_iff.1 h
    exact exec_csr_of_outside hi hn
  constructor
  · intro h
    rcases exec_cases i s with hill | ⟨e, hdue⟩ | ⟨rfl, hM⟩ | ⟨rfl, hlegal⟩ | ⟨c, hi, hallowed⟩
    · rw [houtside hill] at h
      cases h
      exact .inl ⟨rfl, hill⟩
    · exact .inr (.inl ⟨e, hdue, exec_of_exceptionDue hdue ▸ h⟩)
    · rw [exec_mret_of_machine hM] at h
      cases h
    · rw [exec_sret_of_not_illegal hlegal] at h
      cases h
    · rw [exec_csr_of_accessAllowed hi hallowed] at h
      obtain ⟨v, hv, hw⟩ := csrEffect_refused_iff.1 h
      exact .inr (.inr ⟨c, v, hi, hallowed, hv, hw⟩)
  · rintro (⟨rfl, hill⟩ | ⟨e, hdue, hr⟩ | ⟨c, v, hi, hallowed, hv, hw⟩)
    · exact houtside hill
    · rwa [exec_of_exceptionDue hdue]
    · rw [exec_csr_of_accessAllowed hi hallowed]
      exact csrEffect_refused_iff.2 ⟨v, hv, hw⟩

/-- An exception is due whose own vector satisfies `p`: the form in which the two refusals of a trap are stated. -/
theorem exists_exceptionDue_iff {i : Instr} {s : State} {p : Word → Prop} :
    (∃ e, exceptionDue i s (excCode e) ∧ ∃ v, exceptionVector s (excCode e) v ∧ p v) ↔
      ∃ c v, exceptionDue i s c ∧ exceptionVector s c v ∧ p v := by
  constructor
  · rintro ⟨e, hdue, v, hv, hp⟩
    exact ⟨excCode e, v, hdue, hv, hp⟩
  · rintro ⟨c, v, hdue, hv, hp⟩
    obtain ⟨e, rfl⟩ := exists_excCode_of_exceptionDue hdue
    exact ⟨e, hdue, v, hv, hp⟩

/-- An instruction is refused for want of a trap target where an exception is due through a vector that has none. -/
theorem exec_refused_trap_iff {i : Instr} {s : State} {r : Refusal} {p : Word → Prop} (hcsr : r ≠ .csrOutsideSpec)
    (htvec : r ≠ .tvecWriteReservedMode) (hp : ∀ v c, trapTarget v c = .error r ↔ p v) :
    exec i s = .refused r ↔ ∃ c v, exceptionDue i s c ∧ exceptionVector s c v ∧ p v := by
  rw [← exists_exceptionDue_iff]
  simp [exec_refused_iff, raise_refused_iff, csrWrite_refused_iff, hcsr, htvec, hp]

/-- An instruction is refused for a misaligned Vectored base where an exception is due through one (R177, D17). -/
theorem exec_refused_misaligned_iff {i : Instr} {s : State} :
    exec i s = .refused .vectoredTrapMisalignedBase ↔
      ∃ c v, exceptionDue i s c ∧ exceptionVector s c v ∧ v.extractLsb' 0 2 = 1#2 ∧ v &&& 0x7C#64 ≠ 0#64 :=
  exec_refused_trap_iff nofun nofun fun v c => by simp [trapTarget_error_iff]

/-- An instruction is refused for a reserved MODE where an exception is due through one (R177 a;
notes/assumptions/19.md). -/
theorem exec_refused_reserved_iff {i : Instr} {s : State} :
    exec i s = .refused .trapThroughReservedMode ↔
      ∃ c v, exceptionDue i s c ∧ exceptionVector s c v ∧ ¬ v.extractLsb' 0 2 < 2#2 :=
  exec_refused_trap_iff nofun nofun fun v c => by simp [trapTarget_error_iff]

/-- An instruction is refused for a reserved MODE it writes where `legalize_mtvec` is not supplied (R47, D16). -/
theorem exec_refused_tvecWrite_iff {i : Instr} {s : State} :
    exec i s = .refused .tvecWriteReservedMode ↔ s.cfg.legalizeMtvecSupplied = false ∧
      ∃ c v, (c = .mtvec ∨ c = .stvec) ∧ i.csrField? = some (csrNumber c) ∧ accessAllowed s c ∧
        valueWritten? i s c = some v ∧ ¬ v.extractLsb' 0 2 < 2#2 := by
  simp only [exec_refused_iff, raise_refused_iff, csrWrite_refused_iff, trapTarget_error_iff, reduceCtorEq, false_and,
    or_false, false_or, and_false, exists_false, true_and]
  constructor
  · rintro ⟨c, v, hi, hallowed, hv, hc, hmode, hno⟩
    exact ⟨hno, c, v, hc, hi, hallowed, hv, hmode⟩
  · rintro ⟨hno, c, v, hc, hi, hallowed, hv, hmode⟩
    exact ⟨c, v, hi, hallowed, hv, hc, hmode, hno⟩

/-- An instruction is refused as outside the spec where it is ill-formed (R50, D27). -/
theorem exec_refused_outside_iff {i : Instr} {s : State} :
    exec i s = .refused .csrOutsideSpec ↔ i.wellFormed = false := by
  simp [exec_refused_iff, raise_refused_iff, csrWrite_refused_iff, trapTarget_error_iff]

/-- No instruction is refused for any other reason. -/
theorem exec_refused_reason {i : Instr} {s : State} {r : Refusal} (h : exec i s = .refused r) :
    r = .csrOutsideSpec ∨ r = .tvecWriteReservedMode ∨ r = .vectoredTrapMisalignedBase ∨
      r = .trapThroughReservedMode := by
  rcases exec_refused_iff.1 h with ⟨rfl, -⟩ | ⟨e, -, hr⟩ | ⟨c, v, -, -, -, hw⟩
  · exact .inl rfl
  · obtain ⟨v, -, ht⟩ := raise_refused_iff.1 hr
    rcases trapTarget_error_iff.1 ht with ⟨rfl, -⟩ | ⟨rfl, -⟩
    · exact .inr (.inr (.inl rfl))
    · exact .inr (.inr (.inr rfl))
  · obtain ⟨rfl, -⟩ := csrWrite_refused_iff.1 hw
    exact .inr (.inl rfl)

/-- In a legal state no trap vector holds a reserved MODE (R45, R177 a). -/
theorem tvecOf_mode_of_legal {s : State} (hl : Legal s) (lvl : Level) : (s.tvecOf lvl).extractLsb' 0 2 < 2#2 := by
  cases lvl
  · exact mode_lt_two_iff.2 hl.mtvec
  · exact mode_lt_two_iff.2 hl.stvec

/-- In a legal state no trap is refused for a reserved MODE (D17). -/
theorem enterTrap_ne_reserved {s : State} (hl : Legal s) (lvl : Level) (c : Cause) :
    enterTrap lvl c s ≠ .refused .trapThroughReservedMode := by
  simp [enterTrap_refused_iff, trapTarget_error_iff, tvecOf_mode_of_legal hl lvl]

/-- In a legal state no instruction is refused for a reserved MODE (D17). -/
theorem exec_ne_reserved {s : State} (hl : Legal s) (i : Instr) :
    exec i s ≠ .refused .trapThroughReservedMode := by
  intro h
  obtain ⟨c, v, hdue, hv, hmode⟩ := exec_refused_reserved_iff.1 h
  obtain ⟨e, rfl⟩ := exists_excCode_of_exceptionDue hdue
  obtain rfl := exceptionVector_iff.1 hv
  exact hmode (tvecOf_mode_of_legal hl _)

/-- In a legal state no step of the hart is refused for a reserved MODE: not the interrupt, nor code 0, nor the
instruction, and the refusals of a fetch have other names (D17). -/
theorem hartStep_ne_reserved {s : State} (hl : Legal s) (b : Bool) :
    hartStep b s ≠ .refused .trapThroughReservedMode := by
  unfold hartStep
  split
  · exact enterTrap_ne_reserved hl _ _
  · split
    · unfold fetchAndExecute
      split
      · simp
      · split
        · next e _ => cases e <;> simp [refusalOfDecode]
        · exact exec_ne_reserved hl _
    · exact enterTrap_ne_reserved hl _ _

end Sys2Proof.Machine
end

section
/-! PROOFS. Where the machine stops (93_implementation_defined.md Part 1b). -/

namespace Sys2Proof.Proofs

open Sys2Proof.Machine

/-- Settles O60: each reason of `exec_refused_iff` in the words of the spec's list, and no other reason. -/
theorem instructionsStopOnlyWhereTheSpecRefuses : Obligations.InstructionsStopOnlyWhereTheSpecRefuses := by
  intro i s
  refine ⟨fun r hr => ⟨fun h => ?_, ?_⟩, exec_refused_reserved_iff, fun hl => exec_ne_reserved hl i⟩
  · rcases exec_refused_reason h with rfl | rfl | rfl | rfl
    · exact .inl ⟨rfl, exec_refused_outside_iff.1 h⟩
    · exact .inr (.inl ⟨rfl, exec_refused_tvecWrite_iff.1 h⟩)
    · exact .inr (.inr ⟨rfl, exec_refused_misaligned_iff.1 h⟩)
    · exact absurd rfl hr
  · rintro (⟨rfl, h⟩ | ⟨rfl, h⟩ | ⟨rfl, h⟩)
    · exact exec_refused_outside_iff.2 h
    · exact exec_refused_tvecWrite_iff.2 h
    · exact exec_refused_misaligned_iff.2 h

/-- Settles O52: the hart's step is the only turn that can be refused, and in a legal state not for this reason. -/
theorem noTrapThroughAReservedMode : Obligations.NoTrapThroughAReservedMode := by
  intro s hl
  unfold step nextTurn
  split
  · exact hartStep_ne_reserved hl _
  · exact hartStep_ne_reserved (legal_popTurn hl) _
  all_goals simp

end Sys2Proof.Proofs
end

section
/-! SUPPORT. What no instruction and no turn changes: memory, the parameters, the wires (20_memory.md sections 4 and 5,
10_state.md section 11). -/

namespace Sys2Proof.Machine

open Sys2Proof.Claims

/-- `t` has the memory, the parameters and the wires of `s`. -/
def sameOutside (t s : State) : Prop := t.mem = s.mem ∧ t.cfg = s.cfg ∧ t.lines = s.lines

theorem enterTrap_sameOutside {lvl : Level} {c : Cause} {s t : State} (h : enterTrap lvl c s = .next t) :
    sameOutside t s := by
  obtain ⟨a, -, rfl⟩ := enterTrap_next h
  obtain ⟨-, hlines, hmem, hcfg, -⟩ := enterLevel_frame s lvl c a
  exact ⟨hmem, hcfg, hlines⟩

theorem csrWrite_sameOutside {s w : State} {v : Word} {c : Csr} (h : csrWrite s v c = .next w) :
    sameOutside w s := by
  rw [csrWrite_next h]
  exact ⟨rfl, rfl, rfl⟩

/-- No instruction writes memory, a parameter or a wire (D26). -/
theorem exec_sameOutside {i : Instr} {s t : State} (h : exec i s = .next t) : sameOutside t s := by
  rcases exec_next h with ⟨e, hr⟩ | ⟨-, -, rfl⟩ | ⟨-, -, -, rfl⟩ | ⟨_, c, w, -, -, hw, rfl⟩
  · exact enterTrap_sameOutside hr
  · exact ⟨rfl, rfl, rfl⟩
  · exact ⟨rfl, rfl, rfl⟩
  · change sameOutside w s
    rcases hw with ⟨v, hw⟩ | rfl
    · exact csrWrite_sameOutside hw
    · exact ⟨rfl, rfl, rfl⟩

theorem hartStep_sameOutside {b : Bool} {s t : State} (h : hartStep b s = .next t) : sameOutside t s := by
  rcases hartStep_next h with ⟨i, lvl, -, ht⟩ | ⟨-, -, hr⟩ | ⟨-, -, hf⟩
  · exact enterTrap_sameOutside ht
  · exact enterTrap_sameOutside hr
  · obtain ⟨_, i, _, -, -, he⟩ := fetchAndExecute_next hf
    exact exec_sameOutside he

/-- What a step can do, with the turn that does it: of the turns, only the CLINT's and the PLIC's are not the hart's
own or a reset (R13). -/
theorem step_next_turn {s t : State} (h : step s = .next t) :
    (∃ b, hartStep b s.popTurn = .next t) ∨ (∃ u, t = s.popTurn.resetTurn u) ∨
      ∃ a b later, (s.agenda = .clint a b :: later ∧ t = s.popTurn.clintTurn a b) ∨
        (s.agenda = .plic a b :: later ∧ t = s.popTurn.plicTurn a b) := by
  cases ha : s.agenda with
  | nil =>
    rw [step_of_agenda_nil ha] at h
    exact .inl ⟨true, (popTurn_of_agenda_nil ha).symm ▸ h⟩
  | cons turn later =>
    rw [step, nextTurn, ha] at h
    cases turn with
    | hart b => exact .inl ⟨b, h⟩
    | clint a b =>
      cases h
      exact .inr (.inr ⟨a, b, later, .inl ⟨rfl, rfl⟩⟩)
    | plic a b =>
      cases h
      exact .inr (.inr ⟨a, b, later, .inr ⟨rfl, rfl⟩⟩)
    | reset u =>
      cases h
      exact .inr (.inl ⟨u, rfl⟩)

end Sys2Proof.Machine
end

section
/-! SUPPORT. Modes and what a mode may do: their order, the CSRs of each, and where an exception leads (10_state.md
R21, R107, 60_exceptions.md section 8). -/

namespace Sys2Proof.Machine

open Sys2Proof.Claims

/-- The order of the modes: U below S below M (R21). -/
theorem code_lt_iff {p q : Priv} : p.code < q.code ↔ (p = .U ∧ q ≠ .U) ∨ (p = .S ∧ q = .M) := by
  cases p <;> cases q <;> decide

/-- A check that allows the access is the spec's (R133). -/
theorem accessAllowed_of_csrCheck {s : State} {c c' : Csr} {dw : Bool} (h : csrCheck s (csrNumber c) dw = .allowed c') :
    accessAllowed s c := by
  by_contra hno
  rw [csrCheck_of_not_accessAllowed hno] at h
  cases h

/-- User mode may access no CSR of R23 (R107). -/
theorem not_accessAllowed_of_user {s : State} (hU : s.priv = .U) (c : Csr) : ¬ accessAllowed s c := by
  rintro ⟨-, hmode⟩
  rw [hU] at hmode
  cases c <;> exact absurd hmode (by decide)

/-- The CSRs that software below machine mode may access (R107). -/
def supervisorCsrs : List Csr := [.sstatus, .sie, .stvec, .sepc, .scause, .sip]

theorem mem_supervisorCsrs {s : State} {c : Csr} (hbelow : s.priv ≠ .M) (h : accessAllowed s c) :
    c ∈ supervisorCsrs := by
  obtain ⟨-, hmode⟩ := h
  have hlow : csrLowestMode (csrNumber c) ≤ 1#2 := by
    cases hp : s.priv with
    | M => exact absurd hp hbelow
    | U | S =>
      rw [hp] at hmode
      exact BitVec.le_trans hmode (by decide)
  cases c with
  | sstatus | sie | stvec | sepc | scause | sip => decide
  | mstatus | medeleg | mideleg | mie | mtvec | mepc | mcause | mip => exact absurd hlow (by decide)

/-- Raising an exception, with the level resolved: into machine mode, or into supervisor mode from below machine mode
on a hart that has it (R192). -/
theorem raise_next_delegated {e : ExcCause} {s t : State} (h : raise e s = .next t) :
    ∃ a, t = s.enterMachine (.exception e) a ∨
      (s.priv ≠ .M ∧ s.cfg.hasS = true ∧ t = s.enterSupervisor (.exception e) a) := by
  obtain ⟨a, -, rfl⟩ := raise_next h
  cases hl : excLevel e s with
  | machine => exact ⟨a, .inl rfl⟩
  | supervisor =>
    obtain ⟨hbelow, hS, -⟩ := excLevel_eq_supervisor_iff.1 hl
    exact ⟨a, .inr ⟨hbelow, hS, rfl⟩⟩

/-- An exception taken from below machine mode into a mode below machine mode goes to supervisor mode, through *stvec*
(R192, R196). -/
theorem raise_next_below {e : ExcCause} {s t : State} (h : raise e s = .next t) (ht : t.priv ≠ .M) :
    ∃ a, excLevel e s = .supervisor ∧ trapTarget s.stvec (.exception e) = .ok a ∧
      t = s.enterSupervisor (.exception e) a := by
  obtain ⟨a, ha, rfl⟩ := raise_next h
  cases hl : excLevel e s with
  | machine =>
    rw [hl] at ht
    exact absurd rfl ht
  | supervisor =>
    rw [hl] at ha
    exact ⟨a, rfl, ha, rfl⟩

/-- The part of the state that belongs to machine mode is in `t` as in `s`: what software below it may not change
(R189, R190, R54, R55). -/
def machineStateKept (t s : State) : Prop :=
  t.mtvec = s.mtvec ∧ t.mepc = s.mepc ∧ t.mcause = s.mcause ∧ t.mideleg = s.mideleg ∧
    t.medeleg = s.medeleg ∧ t.stip = s.stip ∧ t.seipSw = s.seipSw ∧ t.mstatus.mie = s.mstatus.mie ∧
    t.mstatus.mpie = s.mstatus.mpie ∧ t.mstatus.mpp = s.mstatus.mpp ∧ t.mstatus.hi = s.mstatus.hi ∧
    (s.mideleg.getLsbD 1 = false → t.ssip = s.ssip) ∧
    ∀ k, (s.mideleg &&& 0x222#64).getLsbD k = false → t.mie.getLsbD k = s.mie.getLsbD k

theorem machineStateKept_refl (s : State) : machineStateKept s s :=
  ⟨rfl, rfl, rfl, rfl, rfl, rfl, rfl, rfl, rfl, rfl, rfl, fun _ => rfl, fun _ _ => rfl⟩

/-- A write of a supervisor CSR keeps the state of machine mode: *sie* and *sip* reach delegated bits alone (R54, R55,
R190). -/
theorem csrWrite_machineStateKept {s w : State} {v : Word} {c : Csr} (hS : s.cfg.hasS = true)
    (hc : c ∈ supervisorCsrs) (h : csrWrite s v c = .next w) : machineStateKept w s := by
  have hrefl := machineStateKept_refl s
  simp only [supervisorCsrs, List.mem_cons, List.not_mem_nil, or_false] at hc
  rcases hc with rfl | rfl | rfl | rfl | rfl | rfl
  · cases h
    exact hrefl
  · cases h
    refine ⟨rfl, rfl, rfl, rfl, rfl, rfl, rfl, rfl, rfl, rfl, rfl, fun _ => rfl, fun k hk => ?_⟩
    rw [getLsbD_replaceUnder, sViewMask_of_hasS hS, hk]
    rfl
  · simp only [csrWrite] at h
    split at h
    · cases h
      exact hrefl
    · cases h
  · cases h
    exact hrefl
  · cases h
    exact hrefl
  · cases h
    refine ⟨rfl, rfl, rfl, rfl, rfl, rfl, rfl, rfl, rfl, rfl, rfl, fun h1 => ?_, fun _ _ => rfl⟩
    show (if s.midelegWord.getLsbD 1 then v.getLsbD 1 else s.ssip) = s.ssip
    rw [midelegWord_of_hasS hS, h1]
    rfl

/-- The CSRs below machine mode are of Annex S, so one is accessible only on a hart that has supervisor mode (R133). -/
theorem hasS_of_accessAllowed {s : State} {c : Csr} (hbelow : s.priv ≠ .M) (h : accessAllowed s c) :
    s.cfg.hasS = true := by
  have hannex : ∀ c ∈ supervisorCsrs, csrIsAnnex c = true := by decide
  have hc := hannex c (mem_supervisorCsrs hbelow h)
  obtain ⟨hexists, -⟩ := h
  exact hexists hc

end Sys2Proof.Machine
end

section
/-! SUPPORT. Machine mode's trap registers below machine mode: an instruction that stays below does the same whatever
they hold (60_exceptions.md R189). -/

namespace Sys2Proof.Machine

open Sys2Proof.Claims

/-- `s` with other values in machine mode's trap registers. -/
def withMachineTraps (a b m : Word) (s : State) : State := { s with mcause := a, mepc := b, mtvec := m }

/-- A supervisor CSR's write does not read machine mode's trap registers. -/
theorem csrWrite_withMachineTraps {s : State} {c : Csr} (hc : c ∈ supervisorCsrs) (v a b m : Word) :
    csrWrite (withMachineTraps a b m s) v c = mapNext (csrWrite s v c) (withMachineTraps a b m) := by
  simp only [supervisorCsrs, List.mem_cons, List.not_mem_nil, or_false] at hc
  rcases hc with rfl | rfl | rfl | rfl | rfl | rfl
  case inr.inr.inl =>
    simp only [csrWrite, withMachineTraps]
    cases tvecWritten? s.cfg s.stvec v <;> rfl
  all_goals rfl

/-- Nor does its read, nor its old value. -/
theorem csrRead_withMachineTraps {s : State} {c : Csr} (hc : c ∈ supervisorCsrs) (a b m : Word) :
    csrRead (withMachineTraps a b m s) c = csrRead s c ∧ oldValue (withMachineTraps a b m s) c = oldValue s c := by
  simp only [supervisorCsrs, List.mem_cons, List.not_mem_nil, or_false] at hc
  rcases hc with rfl | rfl | rfl | rfl | rfl | rfl <;> exact ⟨rfl, rfl⟩

/-- The value written depends on the old value and the operands, which are general registers or immediates. -/
theorem valueWritten_withMachineTraps {i : Instr} {s : State} {c : Csr} (hc : c ∈ supervisorCsrs) (a b m : Word) :
    valueWritten? i (withMachineTraps a b m s) c = valueWritten? i s c := by
  have hreg (r : RegIdx) : (withMachineTraps a b m s).readX r = s.readX r := rfl
  obtain ⟨-, hold⟩ := csrRead_withMachineTraps (s := s) hc a b m
  cases i <;> simp only [valueWritten?, hreg, hold]

/-- A CSR instruction on a supervisor CSR does the same whatever machine mode's trap registers hold. -/
theorem csrEffect_withMachineTraps {i : Instr} {s t : State} {c : Csr} {ov : Option Word} (hc : c ∈ supervisorCsrs)
    (h : csrEffect i s c ov = .next t) (a b m : Word) :
    csrEffect i (withMachineTraps a b m s) c ov = .next (withMachineTraps a b m t) := by
  obtain ⟨hread, -⟩ := csrRead_withMachineTraps (s := s) hc a b m
  cases ov with
  | none =>
    cases h
    rw [csrEffect, hread]
    rfl
  | some v =>
    obtain ⟨w, hw, rfl⟩ := mapNext_next h
    rw [csrEffect, csrWrite_withMachineTraps hc, hw, hread]
    rfl

/-- So does an exception that is taken into supervisor mode. -/
theorem raise_withMachineTraps {e : ExcCause} {s t : State} (h : raise e s = .next t) (ht : t.priv ≠ .M)
    (a b m : Word) : raise e (withMachineTraps a b m s) = .next (withMachineTraps a b m t) := by
  obtain ⟨target, hlvl, htarget, rfl⟩ := raise_next_below h ht
  have hlvl' : excLevel e (withMachineTraps a b m s) = .supervisor := hlvl
  rw [raise, hlvl', enterTrap_of_target (lvl := .supervisor) (s := withMachineTraps a b m s) htarget]
  rfl

/-- An instruction that starts and ends below machine mode does the same whatever machine mode's trap registers hold
(R189). -/
theorem exec_withMachineTraps {i : Instr} {s t : State} (hbelow : s.priv ≠ .M) (h : exec i s = .next t)
    (ht : t.priv ≠ .M) (a b m : Word) :
    exec i (withMachineTraps a b m s) = .next (withMachineTraps a b m t) := by
  rcases exec_cases i s with hill | ⟨e, hdue⟩ | ⟨-, hM⟩ | ⟨rfl, hlegal⟩ | ⟨c, hi, hallowed⟩
  · rw [exec_refused_outside_iff.2 hill] at h
    cases h
  · rw [exec_of_exceptionDue hdue] at h
    have hdue' : exceptionDue i (withMachineTraps a b m s) (excCode e) := by cases i <;> exact hdue
    rw [exec_of_exceptionDue hdue']
    exact raise_withMachineTraps h ht a b m
  · exact absurd hM hbelow
  · rw [exec_sret_of_not_illegal hlegal] at h
    cases h
    exact exec_sret_of_not_illegal (s := withMachineTraps a b m s) hlegal
  · have hc := mem_supervisorCsrs hbelow hallowed
    rw [exec_csr_of_accessAllowed hi hallowed] at h
    rw [exec_csr_of_accessAllowed (s := withMachineTraps a b m s) hi hallowed, valueWritten_withMachineTraps hc]
    exact csrEffect_withMachineTraps hc h a b m

end Sys2Proof.Machine
end

section
/-! PROOFS. Whole-machine rules: memory and wires, the general registers, the modes, and what software below machine
mode can change and learn (10_state.md sections 1, 11 and 13, 60_exceptions.md section 8). -/

namespace Sys2Proof.Proofs

open Sys2Proof.Machine

/-- Settles O53: the hart's step and the reset turn keep memory, parameters and wires; the other two turns are the
CLINT's and the PLIC's. -/
theorem noStepWritesMemoryAndOnlyAgentsMoveWires : Obligations.NoStepWritesMemoryAndOnlyAgentsMoveWires := by
  intro s t h
  rcases step_next_turn h with ⟨b, hh⟩ | ⟨u, rfl⟩ | ⟨a, b, later, ⟨ha, rfl⟩ | ⟨ha, rfl⟩⟩
  · obtain ⟨hmem, hcfg, hlines⟩ := hartStep_sameOutside hh
    exact ⟨hmem, hcfg, .inl hlines⟩
  · exact ⟨rfl, rfl, .inl rfl⟩
  · exact ⟨rfl, rfl, .inr ⟨a, b, later, .inl ha⟩⟩
  · exact ⟨rfl, rfl, .inr ⟨a, b, later, .inr ha⟩⟩

/-- Settles O54: traps, returns and CSR writes keep the register file, so what changes is what `retire` writes. -/
theorem onlyTheDestinationRegisterChanges : Obligations.OnlyTheDestinationRegisterChanges := by
  intro i s t r h hne
  rcases exec_next h with ⟨e, hr⟩ | ⟨-, -, rfl⟩ | ⟨-, -, -, rfl⟩ | ⟨_, c, w, hi, hc, hw, rfl⟩
  · obtain ⟨a, rfl | rfl⟩ := raise_next_cases hr <;> exact absurd rfl hne
  · exact absurd rfl hne
  · exact absurd rfl hne
  · obtain ⟨hx, hpc, hpriv, -⟩ : sameButCsrs w s := by
      rcases hw with ⟨v, hw⟩ | rfl
      · exact csrWrite_sameButCsrs hw
      · exact sameButCsrs_refl _
    have hdest : r = i.destination := by
      by_contra hother
      exact hne ((readX_retire_other w _ hother).trans (readX_congr hx r))
    have hzero : r ≠ 0 := by
      rintro rfl
      simp at hne
    subst hdest
    exact ⟨rfl, hzero, hpriv, congrArg (· + 4#64) hpc, c, hi, accessAllowed_of_csrCheck hc,
      readX_retire_same w _ hzero⟩

/-- Settles O55: an exception goes up or stays, MRET and SRET go down or stay, and a CSR instruction stays. -/
theorem modeChangesOnlyByTrapAndReturn : Obligations.ModeChangesOnlyByTrapAndReturn := by
  intro i s t h
  rcases exec_next h with ⟨e, hr⟩ | ⟨rfl, hM, rfl⟩ | ⟨rfl, hU, hS, rfl⟩ | ⟨_, c, w, -, -, hw, rfl⟩
  · obtain ⟨a, rfl | ⟨hbelow, hS, rfl⟩⟩ := raise_next_delegated hr
    · refine ⟨fun _ => .inl ⟨rfl, rfl, rfl⟩, fun hlt => ?_⟩
      simp [code_lt_iff] at hlt
    · refine ⟨fun hlt => .inr ⟨rfl, rfl, ?_, hS⟩, fun hlt => ?_⟩
      · have hU : s.priv = .U := by simpa [code_lt_iff] using hlt
        simp [hU]
      · simp [code_lt_iff, hbelow] at hlt
  · refine ⟨fun hlt => ?_, fun _ => .inl ⟨rfl, hM, rfl, rfl⟩⟩
    simp [code_lt_iff, hM] at hlt
  · refine ⟨fun hlt => ?_, fun _ => .inr ⟨rfl, rfl, rfl⟩⟩
    rcases code_lt_iff.1 hlt with ⟨hpriv, -⟩ | ⟨-, hM⟩
    · exact absurd hpriv hU
    · rw [State.returnSupervisor_priv] at hM
      split at hM <;> cases hM
  · have hpriv : w.priv = s.priv := by
      rcases hw with ⟨v, hw⟩ | rfl
      · obtain ⟨-, -, hpriv, -⟩ := csrWrite_sameButCsrs hw
        exact hpriv
      · rfl
    rw [State.retire_priv, hpriv]
    exact ⟨fun hlt => absurd hlt (BitVec.lt_irrefl _), fun hlt => absurd hlt (BitVec.lt_irrefl _)⟩

/-- Settles O56: user mode may access no CSR and run no return, so what completes is an exception. -/
theorem userModeCanOnlyTrap : Obligations.UserModeCanOnlyTrap := by
  intro i s t hU h
  rcases exec_next h with ⟨e, hr⟩ | ⟨-, hM, -⟩ | ⟨-, hne, -⟩ | ⟨_, c, w, -, hc, -⟩
  · obtain ⟨a, rfl | rfl⟩ := raise_next_cases hr
    · exact ⟨rfl, .inl ⟨rfl, rfl, hU, rfl⟩⟩
    · exact ⟨rfl, .inr ⟨rfl, rfl, by simp [hU], rfl⟩⟩
  · rw [hU] at hM
    cases hM
  · exact absurd hU hne
  · exact absurd (accessAllowed_of_csrCheck hc) (not_accessAllowed_of_user hU c)

/-- Settles O58: below machine mode what completes is an exception into supervisor mode, SRET, or an access of a
supervisor CSR, and each keeps the state of machine mode. -/
theorem belowMachineModeMachineStateIsSafe : Obligations.BelowMachineModeMachineStateIsSafe := by
  intro i s t hbelow h ht
  show machineStateKept t s
  rcases exec_next h with ⟨e, hr⟩ | ⟨-, hM, -⟩ | ⟨-, -, -, rfl⟩ | ⟨_, c, w, -, hc, hw, rfl⟩
  · obtain ⟨a, -, -, rfl⟩ := raise_next_below hr ht
    exact machineStateKept_refl s
  · exact absurd hM hbelow
  · exact machineStateKept_refl s
  · change machineStateKept w s
    rcases hw with ⟨v, hw⟩ | rfl
    · have hallowed := accessAllowed_of_csrCheck hc
      exact csrWrite_machineStateKept (hasS_of_accessAllowed hbelow hallowed) (mem_supervisorCsrs hbelow hallowed) hw
    · exact machineStateKept_refl _

/-- Settles O59: the two runs meet the same case of `exec_cases`, and each case commutes with a change of machine
mode's trap registers. -/
theorem belowMachineModeTrapRegistersAreInvisible : Obligations.BelowMachineModeTrapRegistersAreInvisible := by
  intro i s t a b m hbelow h ht
  exact exec_withMachineTraps hbelow h ht a b m

end Sys2Proof.Proofs
end
